-- ==== Sys2Proof/Word.lean ====
section
/-! DEFINITION. The two sizes of value of the machine (00_scope.md R6). -/

namespace Sys2Proof

/-- A byte: A, H, X, a memory cell, an operand byte (R6, R50). -/
abbrev Byte := BitVec 8

/-- A 16-bit value: H:X, SP, PC, an address (R6, R50). -/
abbrev Word := BitVec 16

end Sys2Proof
end

