-- ==== Sys2Proof/Syntax.lean ====
section
/-! DEFINITION. The instructions: one constructor per mnemonic of spec/opcode_table.json, its addressing modes being its
operand (30_encoding.md R80 to R98, R106 to R108). -/

namespace Sys2Proof

/-- The addressing modes that select a memory byte (R85 to R91). Which of them an instruction has is R107
(`Instr.wellFormed`). -/
inductive Ea where
  /-- DIR, the address `$00:dd` (R85). -/
  | dir (dd : Byte)
  /-- EXT, the address `hh:ll` (R86). -/
  | ext (hhll : Word)
  /-- IX2, H:X plus a 16-bit offset (R89). -/
  | ix2 (eeff : Word)
  /-- IX1, H:X plus an unsigned 8-bit offset (R88). -/
  | ix1 (ff : Byte)
  /-- IX, H:X (R87). -/
  | ix
  /-- SP1, SP plus an unsigned 8-bit offset (R90). -/
  | sp1 (ff : Byte)
  /-- SP2, SP plus a 16-bit offset (R91). -/
  | sp2 (eeff : Word)
  deriving DecidableEq, Repr

/-- The operand of a register/memory instruction: an immediate byte (R84) or a memory byte (R230). -/
inductive Src where
  | imm (ii : Byte)
  | mem (ea : Ea)
  deriving DecidableEq, Repr

/-- The operand of LDHX and CPHX: a 16-bit immediate (R108) or two bytes of the direct page. -/
inductive Src16 where
  | imm (iijj : Word)
  | dir (dd : Byte)
  deriving DecidableEq, Repr

/-- The forms of MOV (R95 to R98). -/
inductive MovForm where
  /-- DD: direct to direct. -/
  | dd (src dst : Byte)
  /-- DIX+: direct to indexed, then H:X is incremented. -/
  | dixp (src : Byte)
  /-- IMD: immediate to direct. -/
  | imd (ii dst : Byte)
  /-- IX+D: indexed to direct, then H:X is incremented. -/
  | ixpd (dst : Byte)
  deriving DecidableEq, Repr

/-- The memory forms of CBEQ (R92, R93, R180). -/
inductive CbeqForm where
  | dir (dd : Byte)
  /-- IX1+: indexed with an 8-bit offset, then H:X is incremented. -/
  | ix1p (ff : Byte)
  /-- IX+: indexed, then H:X is incremented. -/
  | ixp
  | sp1 (ff : Byte)
  deriving DecidableEq, Repr

/-- The instructions, in the order of spec/opcode_table.json. -/
inductive Instr where
  /-- BRSET, R123. -/
  | brset (n : BitVec 3) (dd rr : Byte)
  /-- BRCLR, R122. -/
  | brclr (n : BitVec 3) (dd rr : Byte)
  /-- BSET, R124. -/
  | bset (n : BitVec 3) (dd : Byte)
  /-- BCLR, R121. -/
  | bclr (n : BitVec 3) (dd : Byte)
  /-- BRA, R151. -/
  | bra (rr : Byte)
  /-- BRN, R152. -/
  | brn (rr : Byte)
  /-- BHI, R138. -/
  | bhi (rr : Byte)
  /-- BLS, R144. -/
  | bls (rr : Byte)
  /-- BCC, R131. -/
  | bcc (rr : Byte)
  /-- BCS, R132. -/
  | bcs (rr : Byte)
  /-- BNE, R149. -/
  | bne (rr : Byte)
  /-- BEQ, R133. -/
  | beq (rr : Byte)
  /-- BHCC, R136. -/
  | bhcc (rr : Byte)
  /-- BHCS, R137. -/
  | bhcs (rr : Byte)
  /-- BPL, R150. -/
  | bpl (rr : Byte)
  /-- BMI, R147. -/
  | bmi (rr : Byte)
  /-- BMC, R146. -/
  | bmc (rr : Byte)
  /-- BMS, R148. -/
  | bms (rr : Byte)
  /-- BIL, R141. -/
  | bil (rr : Byte)
  /-- BIH, R140. -/
  | bih (rr : Byte)
  /-- NEG, R169. -/
  | neg (ea : Ea)
  /-- CBEQ, R180. -/
  | cbeq (form : CbeqForm) (rr : Byte)
  /-- COM, R164. -/
  | com (ea : Ea)
  /-- LSR, R168. -/
  | lsr (ea : Ea)
  /-- STHX, R189. -/
  | sthx (dd : Byte)
  /-- ROR, R171. -/
  | ror (ea : Ea)
  /-- ASR, R162. -/
  | asr (ea : Ea)
  /-- LSL, R167. -/
  | lsl (ea : Ea)
  /-- ROL, R170. -/
  | rol (ea : Ea)
  /-- DEC, R165. -/
  | dec (ea : Ea)
  /-- DBNZ, R183. -/
  | dbnz (ea : Ea) (rr : Byte)
  /-- INC, R166. -/
  | inc (ea : Ea)
  /-- TST, R172. -/
  | tst (ea : Ea)
  /-- CLR, R163. -/
  | clr (ea : Ea)
  /-- NEGA, R169. -/
  | nega
  /-- CBEQA, R180. -/
  | cbeqa (ii rr : Byte)
  /-- MUL, R187. -/
  | mul
  /-- COMA, R164. -/
  | coma
  /-- LSRA, R168. -/
  | lsra
  /-- LDHX, R185. -/
  | ldhx (src : Src16)
  /-- RORA, R171. -/
  | rora
  /-- ASRA, R162. -/
  | asra
  /-- LSLA, R167. -/
  | lsla
  /-- ROLA, R170. -/
  | rola
  /-- DECA, R165. -/
  | deca
  /-- DBNZA, R183. -/
  | dbnza (rr : Byte)
  /-- INCA, R166. -/
  | inca
  /-- TSTA, R172. -/
  | tsta
  /-- MOV, R186. -/
  | mov (form : MovForm)
  /-- CLRA, R163. -/
  | clra
  /-- NEGX, R169. -/
  | negx
  /-- CBEQX, R180. -/
  | cbeqx (ii rr : Byte)
  /-- DIV, R184. -/
  | div
  /-- COMX, R164. -/
  | comx
  /-- LSRX, R168. -/
  | lsrx
  /-- RORX, R171. -/
  | rorx
  /-- ASRX, R162. -/
  | asrx
  /-- LSLX, R167. -/
  | lslx
  /-- ROLX, R170. -/
  | rolx
  /-- DECX, R165. -/
  | decx
  /-- DBNZX, R183. -/
  | dbnzx (rr : Byte)
  /-- INCX, R166. -/
  | incx
  /-- TSTX, R172. -/
  | tstx
  /-- CLRX, R163. -/
  | clrx
  /-- NSA, R188. -/
  | nsa
  /-- CPHX, R181. -/
  | cphx (src : Src16)
  /-- DAA, R182. -/
  | daa
  /-- RTI, R210. -/
  | rti
  /-- RTS, R211. -/
  | rts
  /-- SWI, R215. -/
  | swi
  /-- TAP, R216. -/
  | tap
  /-- TPA, R218. -/
  | tpa
  /-- PULA, R206. -/
  | pula
  /-- PSHA, R203. -/
  | psha
  /-- PULX, R208. -/
  | pulx
  /-- PSHX, R205. -/
  | pshx
  /-- PULH, R207. -/
  | pulh
  /-- PSHH, R204. -/
  | pshh
  /-- CLRH, R163. -/
  | clrh
  /-- STOP, R214. -/
  | stop
  /-- WAIT, R222. -/
  | wait
  /-- BGE, R134. -/
  | bge (rr : Byte)
  /-- BLT, R145. -/
  | blt (rr : Byte)
  /-- BGT, R135. -/
  | bgt (rr : Byte)
  /-- BLE, R142. -/
  | ble (rr : Byte)
  /-- TXS, R221. -/
  | txs
  /-- TSX, R219. -/
  | tsx
  /-- TAX, R217. -/
  | tax
  /-- CLC, R200. -/
  | clc
  /-- SEC, R212. -/
  | sec
  /-- CLI, R201. -/
  | cli
  /-- SEI, R213. -/
  | sei
  /-- RSP, R209. -/
  | rsp
  /-- NOP, R202. -/
  | nop
  /-- TXA, R220. -/
  | txa
  /-- SUB, R248. -/
  | sub (src : Src)
  /-- CMP, R237. -/
  | cmp (src : Src)
  /-- SBC, R245. -/
  | sbc (src : Src)
  /-- CPX, R238. -/
  | cpx (src : Src)
  /-- AND, R235. -/
  | and (src : Src)
  /-- BIT, R236. -/
  | bit (src : Src)
  /-- LDA, R242. -/
  | lda (src : Src)
  /-- AIS, R233. -/
  | ais (ii : Byte)
  /-- EOR, R239. -/
  | eor (src : Src)
  /-- ADC, R231. -/
  | adc (src : Src)
  /-- ORA, R244. -/
  | ora (src : Src)
  /-- ADD, R232. -/
  | add (src : Src)
  /-- BSR, R153. -/
  | bsr (rr : Byte)
  /-- LDX, R243. -/
  | ldx (src : Src)
  /-- AIX, R234. -/
  | aix (ii : Byte)
  /-- STA, R246. -/
  | sta (ea : Ea)
  /-- JMP, R240. -/
  | jmp (ea : Ea)
  /-- JSR, R241. -/
  | jsr (ea : Ea)
  /-- STX, R247. -/
  | stx (ea : Ea)
  /-- ASL, R161 (the same words as LSL, R103). -/
  | asl (ea : Ea)
  /-- ASLA, R161 (the same words as LSLA, R103). -/
  | asla
  /-- ASLX, R161 (the same words as LSLX, R103). -/
  | aslx
  /-- BHS, R139 (the same words as BCC, R103). -/
  | bhs (rr : Byte)
  /-- BLO, R143 (the same words as BCS, R103). -/
  | blo (rr : Byte)
  deriving DecidableEq, Repr

end Sys2Proof
end

