-- ==== Sys2Proof/WellFormed.lean ====
section
/-! DEFINITION. Which addressing modes exist for which instruction (30_encoding.md R107). Every value of every operand
byte is legal (R101), and a bit number is a 3-bit field (R106), so nothing else can be wrong in a term of `Instr`. -/

namespace Sys2Proof

/-- The memory forms of the read-modify-write group and of DBNZ: DIR, IX1, IX, SP1 (R107). -/
def Ea.rmwForm : Ea → Bool
  | .dir _ => true
  | .ext _ => false
  | .ix2 _ => false
  | .ix1 _ => true
  | .ix => true
  | .sp1 _ => true
  | .sp2 _ => false

/-- The forms of JMP and JSR: DIR, EXT, IX2, IX1, IX (R107). -/
def Ea.jumpForm : Ea → Bool
  | .dir _ => true
  | .ext _ => true
  | .ix2 _ => true
  | .ix1 _ => true
  | .ix => true
  | .sp1 _ => false
  | .sp2 _ => false

/-- Whether an instruction has the form its operand asks for (R107). -/
def Instr.wellFormed : Instr → Bool
  | .brset _ _ _ => true
  | .brclr _ _ _ => true
  | .bset _ _ => true
  | .bclr _ _ => true
  | .bra _ => true
  | .brn _ => true
  | .bhi _ => true
  | .bls _ => true
  | .bcc _ => true
  | .bcs _ => true
  | .bne _ => true
  | .beq _ => true
  | .bhcc _ => true
  | .bhcs _ => true
  | .bpl _ => true
  | .bmi _ => true
  | .bmc _ => true
  | .bms _ => true
  | .bil _ => true
  | .bih _ => true
  | .neg ea => ea.rmwForm
  | .cbeq _ _ => true
  | .com ea => ea.rmwForm
  | .lsr ea => ea.rmwForm
  | .sthx _ => true
  | .ror ea => ea.rmwForm
  | .asr ea => ea.rmwForm
  | .lsl ea => ea.rmwForm
  | .rol ea => ea.rmwForm
  | .dec ea => ea.rmwForm
  | .dbnz ea _ => ea.rmwForm
  | .inc ea => ea.rmwForm
  | .tst ea => ea.rmwForm
  | .clr ea => ea.rmwForm
  | .nega => true
  | .cbeqa _ _ => true
  | .mul => true
  | .coma => true
  | .lsra => true
  | .ldhx _ => true
  | .rora => true
  | .asra => true
  | .lsla => true
  | .rola => true
  | .deca => true
  | .dbnza _ => true
  | .inca => true
  | .tsta => true
  | .mov _ => true
  | .clra => true
  | .negx => true
  | .cbeqx _ _ => true
  | .div => true
  | .comx => true
  | .lsrx => true
  | .rorx => true
  | .asrx => true
  | .lslx => true
  | .rolx => true
  | .decx => true
  | .dbnzx _ => true
  | .incx => true
  | .tstx => true
  | .clrx => true
  | .nsa => true
  | .cphx _ => true
  | .daa => true
  | .rti => true
  | .rts => true
  | .swi => true
  | .tap => true
  | .tpa => true
  | .pula => true
  | .psha => true
  | .pulx => true
  | .pshx => true
  | .pulh => true
  | .pshh => true
  | .clrh => true
  | .stop => true
  | .wait => true
  | .bge _ => true
  | .blt _ => true
  | .bgt _ => true
  | .ble _ => true
  | .txs => true
  | .tsx => true
  | .tax => true
  | .clc => true
  | .sec => true
  | .cli => true
  | .sei => true
  | .rsp => true
  | .nop => true
  | .txa => true
  | .sub _ => true
  | .cmp _ => true
  | .sbc _ => true
  | .cpx _ => true
  | .and _ => true
  | .bit _ => true
  | .lda _ => true
  | .ais _ => true
  | .eor _ => true
  | .adc _ => true
  | .ora _ => true
  | .add _ => true
  | .bsr _ => true
  | .ldx _ => true
  | .aix _ => true
  | .sta _ => true
  | .jmp ea => ea.jumpForm
  | .jsr ea => ea.jumpForm
  | .stx _ => true
  | .asl ea => ea.rmwForm
  | .asla => true
  | .aslx => true
  | .bhs _ => true
  | .blo _ => true

end Sys2Proof
end

