-- ==== Sys2Proof/Decode.lean ====
section
/-! DEFINITION. From bytes to instructions and back (30_encoding.md R80 to R109): the length of every form, the decoder,
which follows the columns and rows of the opcode map (R82), and the encoder. -/

namespace Sys2Proof

/-- The length in bytes of an instruction with the addressing-mode operand `ea`: an opcode, the prebyte of the SP modes,
and the operand bytes (R104). -/
def Ea.length : Ea → Nat
  | .dir _ => 2
  | .ext _ => 3
  | .ix2 _ => 3
  | .ix1 _ => 2
  | .ix => 1
  | .sp1 _ => 3
  | .sp2 _ => 4

/-- The length in bytes of a register/memory instruction (R104). -/
def Src.length : Src → Nat
  | .imm _ => 2
  | .mem ea => ea.length

/-- The length in bytes of LDHX and CPHX (R104). -/
def Src16.length : Src16 → Nat
  | .imm _ => 3
  | .dir _ => 2

/-- The length in bytes of MOV (R104). -/
def MovForm.length : MovForm → Nat
  | .dd _ _ => 3
  | .dixp _ => 2
  | .imd _ _ => 3
  | .ixpd _ => 2

/-- The length in bytes of CBEQ on memory (R104). -/
def CbeqForm.length : CbeqForm → Nat
  | .dir _ => 3
  | .ix1p _ => 3
  | .ixp => 2
  | .sp1 _ => 4

/-- The length of an instruction in bytes (R104). -/
def Instr.length : Instr → Nat
  | .brset _ _ _ => 3
  | .brclr _ _ _ => 3
  | .bset _ _ => 2
  | .bclr _ _ => 2
  | .bra _ => 2
  | .brn _ => 2
  | .bhi _ => 2
  | .bls _ => 2
  | .bcc _ => 2
  | .bcs _ => 2
  | .bne _ => 2
  | .beq _ => 2
  | .bhcc _ => 2
  | .bhcs _ => 2
  | .bpl _ => 2
  | .bmi _ => 2
  | .bmc _ => 2
  | .bms _ => 2
  | .bil _ => 2
  | .bih _ => 2
  | .neg ea => ea.length
  | .cbeq form _ => form.length
  | .com ea => ea.length
  | .lsr ea => ea.length
  | .sthx _ => 2
  | .ror ea => ea.length
  | .asr ea => ea.length
  | .lsl ea => ea.length
  | .rol ea => ea.length
  | .dec ea => ea.length
  | .dbnz ea _ => ea.length + 1
  | .inc ea => ea.length
  | .tst ea => ea.length
  | .clr ea => ea.length
  | .nega => 1
  | .cbeqa _ _ => 3
  | .mul => 1
  | .coma => 1
  | .lsra => 1
  | .ldhx src => src.length
  | .rora => 1
  | .asra => 1
  | .lsla => 1
  | .rola => 1
  | .deca => 1
  | .dbnza _ => 2
  | .inca => 1
  | .tsta => 1
  | .mov form => form.length
  | .clra => 1
  | .negx => 1
  | .cbeqx _ _ => 3
  | .div => 1
  | .comx => 1
  | .lsrx => 1
  | .rorx => 1
  | .asrx => 1
  | .lslx => 1
  | .rolx => 1
  | .decx => 1
  | .dbnzx _ => 2
  | .incx => 1
  | .tstx => 1
  | .clrx => 1
  | .nsa => 1
  | .cphx src => src.length
  | .daa => 1
  | .rti => 1
  | .rts => 1
  | .swi => 1
  | .tap => 1
  | .tpa => 1
  | .pula => 1
  | .psha => 1
  | .pulx => 1
  | .pshx => 1
  | .pulh => 1
  | .pshh => 1
  | .clrh => 1
  | .stop => 1
  | .wait => 1
  | .bge _ => 2
  | .blt _ => 2
  | .bgt _ => 2
  | .ble _ => 2
  | .txs => 1
  | .tsx => 1
  | .tax => 1
  | .clc => 1
  | .sec => 1
  | .cli => 1
  | .sei => 1
  | .rsp => 1
  | .nop => 1
  | .txa => 1
  | .sub src => src.length
  | .cmp src => src.length
  | .sbc src => src.length
  | .cpx src => src.length
  | .and src => src.length
  | .bit src => src.length
  | .lda src => src.length
  | .ais _ => 2
  | .eor src => src.length
  | .adc src => src.length
  | .ora src => src.length
  | .add src => src.length
  | .bsr _ => 2
  | .ldx src => src.length
  | .aix _ => 2
  | .sta ea => ea.length
  | .jmp ea => ea.length
  | .jsr ea => ea.length
  | .stx ea => ea.length
  | .asl ea => ea.length
  | .asla => 1
  | .aslx => 1
  | .bhs _ => 2
  | .blo _ => 2

/-- The instruction whose words an instruction has: the five second names of R103 stand for a core instruction, every
other instruction for itself. -/
def Instr.canonical : Instr → Instr
  | .asl ea => .lsl ea
  | .asla => .lsla
  | .aslx => .lslx
  | .bhs rr => .bcc rr
  | .blo rr => .bcs rr
  | .brset n dd rr => .brset n dd rr
  | .brclr n dd rr => .brclr n dd rr
  | .bset n dd => .bset n dd
  | .bclr n dd => .bclr n dd
  | .bra rr => .bra rr
  | .brn rr => .brn rr
  | .bhi rr => .bhi rr
  | .bls rr => .bls rr
  | .bcc rr => .bcc rr
  | .bcs rr => .bcs rr
  | .bne rr => .bne rr
  | .beq rr => .beq rr
  | .bhcc rr => .bhcc rr
  | .bhcs rr => .bhcs rr
  | .bpl rr => .bpl rr
  | .bmi rr => .bmi rr
  | .bmc rr => .bmc rr
  | .bms rr => .bms rr
  | .bil rr => .bil rr
  | .bih rr => .bih rr
  | .neg ea => .neg ea
  | .cbeq form rr => .cbeq form rr
  | .com ea => .com ea
  | .lsr ea => .lsr ea
  | .sthx dd => .sthx dd
  | .ror ea => .ror ea
  | .asr ea => .asr ea
  | .lsl ea => .lsl ea
  | .rol ea => .rol ea
  | .dec ea => .dec ea
  | .dbnz ea rr => .dbnz ea rr
  | .inc ea => .inc ea
  | .tst ea => .tst ea
  | .clr ea => .clr ea
  | .nega => .nega
  | .cbeqa ii rr => .cbeqa ii rr
  | .mul => .mul
  | .coma => .coma
  | .lsra => .lsra
  | .ldhx src => .ldhx src
  | .rora => .rora
  | .asra => .asra
  | .lsla => .lsla
  | .rola => .rola
  | .deca => .deca
  | .dbnza rr => .dbnza rr
  | .inca => .inca
  | .tsta => .tsta
  | .mov form => .mov form
  | .clra => .clra
  | .negx => .negx
  | .cbeqx ii rr => .cbeqx ii rr
  | .div => .div
  | .comx => .comx
  | .lsrx => .lsrx
  | .rorx => .rorx
  | .asrx => .asrx
  | .lslx => .lslx
  | .rolx => .rolx
  | .decx => .decx
  | .dbnzx rr => .dbnzx rr
  | .incx => .incx
  | .tstx => .tstx
  | .clrx => .clrx
  | .nsa => .nsa
  | .cphx src => .cphx src
  | .daa => .daa
  | .rti => .rti
  | .rts => .rts
  | .swi => .swi
  | .tap => .tap
  | .tpa => .tpa
  | .pula => .pula
  | .psha => .psha
  | .pulx => .pulx
  | .pshx => .pshx
  | .pulh => .pulh
  | .pshh => .pshh
  | .clrh => .clrh
  | .stop => .stop
  | .wait => .wait
  | .bge rr => .bge rr
  | .blt rr => .blt rr
  | .bgt rr => .bgt rr
  | .ble rr => .ble rr
  | .txs => .txs
  | .tsx => .tsx
  | .tax => .tax
  | .clc => .clc
  | .sec => .sec
  | .cli => .cli
  | .sei => .sei
  | .rsp => .rsp
  | .nop => .nop
  | .txa => .txa
  | .sub src => .sub src
  | .cmp src => .cmp src
  | .sbc src => .sbc src
  | .cpx src => .cpx src
  | .and src => .and src
  | .bit src => .bit src
  | .lda src => .lda src
  | .ais ii => .ais ii
  | .eor src => .eor src
  | .adc src => .adc src
  | .ora src => .ora src
  | .add src => .add src
  | .bsr rr => .bsr rr
  | .ldx src => .ldx src
  | .aix ii => .aix ii
  | .sta ea => .sta ea
  | .jmp ea => .jmp ea
  | .jsr ea => .jsr ea
  | .stx ea => .stx ea

/-- Why some bytes spell no instruction. Raised by `decode` only; the step turns it into a fault or a reset. -/
inductive DecodeError where
  /-- The bytes end before the instruction does. -/
  | truncated
  /-- An unassigned first byte (R99). -/
  | unassigned (b0 : Byte)
  /-- The prebyte `$9E` and an unassigned second byte (R100). -/
  | unassignedPage2 (b1 : Byte)
  deriving DecidableEq, Repr

/-- What decoding answers: an instruction, or why not. -/
abbrev Decoded := Except DecodeError Instr

/-- The prebyte that selects page 2 (R81). -/
def prebyte : Byte := 0x9E

/-- An instruction with no operand byte left to read. -/
def op0 (i : Instr) (_ : List Byte) : Decoded :=
  .ok i

/-- An instruction with one operand byte. -/
def op1 (k : Byte → Instr) : List Byte → Decoded
  | b :: _ => .ok (k b)
  | [] => .error .truncated

/-- An instruction with two operand bytes, the first at the lower address. -/
def op2 (k : Byte → Byte → Instr) : List Byte → Decoded
  | b :: c :: _ => .ok (k b c)
  | _ => .error .truncated

/-- A two-byte operand field, high byte first (R53, R80). -/
def wordOf (hi lo : Byte) : Word :=
  hi ++ lo

/-- An instruction with one 16-bit operand field. -/
def opWord (k : Word → Instr) : List Byte → Decoded :=
  op2 fun hi lo => k (wordOf hi lo)

/-- Columns 0 and 1 of the map: `000 t nnn c` (R106). -/
def decodeBit (b0 : Byte) (rest : List Byte) : Decoded :=
  let n : BitVec 3 := b0.extractLsb' 1 3
  if b0.getLsbD 4 then
    op1 (if b0.getLsbD 0 then .bclr n else .bset n) rest
  else
    op2 (if b0.getLsbD 0 then .brclr n else .brset n) rest

/-- Column 2 of the map: the branches (R82). -/
def decodeBranch (row : Nat) : List Byte → Decoded :=
  match row with
  | 0 => op1 .bra
  | 1 => op1 .brn
  | 2 => op1 .bhi
  | 3 => op1 .bls
  | 4 => op1 .bcc
  | 5 => op1 .bcs
  | 6 => op1 .bne
  | 7 => op1 .beq
  | 8 => op1 .bhcc
  | 9 => op1 .bhcs
  | 10 => op1 .bpl
  | 11 => op1 .bmi
  | 12 => op1 .bmc
  | 13 => op1 .bms
  | 14 => op1 .bil
  | 15 => op1 .bih
  | _ => fun _ => .error .truncated

/-- The rows of the read-modify-write columns that hold one operation in every memory column (R160). -/
def rmwRow (row : Nat) : Option (Ea → Instr) :=
  match row with
  | 0 => some .neg
  | 3 => some .com
  | 4 => some .lsr
  | 6 => some .ror
  | 7 => some .asr
  | 8 => some .lsl
  | 9 => some .rol
  | 10 => some .dec
  | 12 => some .inc
  | 13 => some .tst
  | 15 => some .clr
  | _ => none

/-- Column 3 of the map, DIR (R82). -/
def decodeCol3 (b0 : Byte) (row : Nat) : List Byte → Decoded :=
  match row with
  | 1 => op2 fun dd rr => .cbeq (.dir dd) rr
  | 5 => op1 .sthx
  | 11 => op2 fun dd rr => .dbnz (.dir dd) rr
  | _ =>
    match rmwRow row with
    | some k => op1 fun dd => k (.dir dd)
    | none => fun _ => .error (.unassigned b0)

/-- Column 4 of the map: the forms on A and what shares the column (R82). -/
def decodeCol4 (b0 : Byte) (row : Nat) : List Byte → Decoded :=
  match row with
  | 0 => op0 .nega
  | 1 => op2 .cbeqa
  | 2 => op0 .mul
  | 3 => op0 .coma
  | 4 => op0 .lsra
  | 5 => opWord fun v => .ldhx (.imm v)
  | 6 => op0 .rora
  | 7 => op0 .asra
  | 8 => op0 .lsla
  | 9 => op0 .rola
  | 10 => op0 .deca
  | 11 => op1 .dbnza
  | 12 => op0 .inca
  | 13 => op0 .tsta
  | 14 => op2 fun src dst => .mov (.dd src dst)
  | 15 => op0 .clra
  | _ => fun _ => .error (.unassigned b0)

/-- Column 5 of the map: the forms on X and what shares the column (R82). -/
def decodeCol5 (b0 : Byte) (row : Nat) : List Byte → Decoded :=
  match row with
  | 0 => op0 .negx
  | 1 => op2 .cbeqx
  | 2 => op0 .div
  | 3 => op0 .comx
  | 4 => op0 .lsrx
  | 5 => op1 fun dd => .ldhx (.dir dd)
  | 6 => op0 .rorx
  | 7 => op0 .asrx
  | 8 => op0 .lslx
  | 9 => op0 .rolx
  | 10 => op0 .decx
  | 11 => op1 .dbnzx
  | 12 => op0 .incx
  | 13 => op0 .tstx
  | 14 => op1 fun src => .mov (.dixp src)
  | 15 => op0 .clrx
  | _ => fun _ => .error (.unassigned b0)

/-- Column 6 of the map, IX1 (R82). -/
def decodeCol6 (b0 : Byte) (row : Nat) : List Byte → Decoded :=
  match row with
  | 1 => op2 fun ff rr => .cbeq (.ix1p ff) rr
  | 2 => op0 .nsa
  | 5 => opWord fun v => .cphx (.imm v)
  | 11 => op2 fun ff rr => .dbnz (.ix1 ff) rr
  | 14 => op2 fun ii dst => .mov (.imd ii dst)
  | _ =>
    match rmwRow row with
    | some k => op1 fun ff => k (.ix1 ff)
    | none => fun _ => .error (.unassigned b0)

/-- Column 7 of the map, IX (R82). -/
def decodeCol7 (b0 : Byte) (row : Nat) : List Byte → Decoded :=
  match row with
  | 1 => op1 fun rr => .cbeq .ixp rr
  | 2 => op0 .daa
  | 5 => op1 fun dd => .cphx (.dir dd)
  | 11 => op1 fun rr => .dbnz .ix rr
  | 14 => op1 fun dst => .mov (.ixpd dst)
  | _ =>
    match rmwRow row with
    | some k => op0 (k .ix)
    | none => fun _ => .error (.unassigned b0)

/-- Column 8 of the map: control (R82). -/
def decodeCol8 (b0 : Byte) (row : Nat) : List Byte → Decoded :=
  match row with
  | 0 => op0 .rti
  | 1 => op0 .rts
  | 3 => op0 .swi
  | 4 => op0 .tap
  | 5 => op0 .tpa
  | 6 => op0 .pula
  | 7 => op0 .psha
  | 8 => op0 .pulx
  | 9 => op0 .pshx
  | 10 => op0 .pulh
  | 11 => op0 .pshh
  | 12 => op0 .clrh
  | 14 => op0 .stop
  | 15 => op0 .wait
  | _ => fun _ => .error (.unassigned b0)

/-- Column 9 of the map: the signed branches and control (R82). -/
def decodeCol9 (b0 : Byte) (row : Nat) : List Byte → Decoded :=
  match row with
  | 0 => op1 .bge
  | 1 => op1 .blt
  | 2 => op1 .bgt
  | 3 => op1 .ble
  | 4 => op0 .txs
  | 5 => op0 .tsx
  | 7 => op0 .tax
  | 8 => op0 .clc
  | 9 => op0 .sec
  | 10 => op0 .cli
  | 11 => op0 .sei
  | 12 => op0 .rsp
  | 13 => op0 .nop
  | 15 => op0 .txa
  | _ => fun _ => .error (.unassigned b0)

/-- The rows of the register/memory columns that read a byte (R230). -/
def srcRow (row : Nat) : Option (Src → Instr) :=
  match row with
  | 0 => some .sub
  | 1 => some .cmp
  | 2 => some .sbc
  | 3 => some .cpx
  | 4 => some .and
  | 5 => some .bit
  | 6 => some .lda
  | 8 => some .eor
  | 9 => some .adc
  | 10 => some .ora
  | 11 => some .add
  | 14 => some .ldx
  | _ => none

/-- The rows of the register/memory columns that have an address in every column (R230). -/
def memRow (row : Nat) : Option (Ea → Instr) :=
  match row with
  | 7 => some .sta
  | 15 => some .stx
  | _ => (srcRow row).map fun k ea => k (.mem ea)

/-- The same with JMP and JSR, which page 2 does not have (R107, R240, R241). -/
def memRowPage1 (row : Nat) : Option (Ea → Instr) :=
  match row with
  | 12 => some .jmp
  | 13 => some .jsr
  | _ => memRow row

/-- Column A of the map, IMM (R82). -/
def decodeColA (b0 : Byte) (row : Nat) : List Byte → Decoded :=
  match row with
  | 7 => op1 .ais
  | 13 => op1 .bsr
  | 15 => op1 .aix
  | _ =>
    match srcRow row with
    | some k => op1 fun ii => k (.imm ii)
    | none => fun _ => .error (.unassigned b0)

/-- Columns B to F of the map: DIR, EXT, IX2, IX1, IX (R82). -/
def decodeMem (b0 : Byte) (row : Nat) (form : (Ea → Instr) → List Byte → Decoded) (rest : List Byte) : Decoded :=
  match memRowPage1 row with
  | some k => form k rest
  | none => .error (.unassigned b0)

/-- A page-1 instruction: the high nibble of the opcode is the column, the low nibble the row (R81, R82). -/
def decodePage1 (b0 : Byte) (rest : List Byte) : Decoded :=
  let row := (b0.extractLsb' 0 4).toNat
  match (b0.extractLsb' 4 4).toNat with
  | 0 => decodeBit b0 rest
  | 1 => decodeBit b0 rest
  | 2 => decodeBranch row rest
  | 3 => decodeCol3 b0 row rest
  | 4 => decodeCol4 b0 row rest
  | 5 => decodeCol5 b0 row rest
  | 6 => decodeCol6 b0 row rest
  | 7 => decodeCol7 b0 row rest
  | 8 => decodeCol8 b0 row rest
  | 9 => decodeCol9 b0 row rest
  | 10 => decodeColA b0 row rest
  | 11 => decodeMem b0 row (fun k => op1 fun dd => k (.dir dd)) rest
  | 12 => decodeMem b0 row (fun k => opWord fun v => k (.ext v)) rest
  | 13 => decodeMem b0 row (fun k => opWord fun v => k (.ix2 v)) rest
  | 14 => decodeMem b0 row (fun k => op1 fun ff => k (.ix1 ff)) rest
  | _ => decodeMem b0 row (fun k => op0 (k .ix)) rest

/-- Column 9E6 of the map, SP1 (R81, R82). -/
def decodeCol9E6 (b1 : Byte) (row : Nat) : List Byte → Decoded :=
  match row with
  | 1 => op2 fun ff rr => .cbeq (.sp1 ff) rr
  | 11 => op2 fun ff rr => .dbnz (.sp1 ff) rr
  | _ =>
    match rmwRow row with
    | some k => op1 fun ff => k (.sp1 ff)
    | none => fun _ => .error (.unassignedPage2 b1)

/-- Columns 9ED and 9EE of the map: SP2, SP1 (R81, R82). -/
def decodeMemPage2 (b1 : Byte) (row : Nat) (form : (Ea → Instr) → List Byte → Decoded) (rest : List Byte) : Decoded :=
  match memRow row with
  | some k => form k rest
  | none => .error (.unassignedPage2 b1)

/-- A page-2 instruction, from its second byte on (R81). -/
def decodePage2 : List Byte → Decoded
  | [] => .error .truncated
  | b1 :: rest =>
    let row := (b1.extractLsb' 0 4).toNat
    match (b1.extractLsb' 4 4).toNat with
    | 6 => decodeCol9E6 b1 row rest
    | 13 => decodeMemPage2 b1 row (fun k => opWord fun v => k (.sp2 v)) rest
    | 14 => decodeMemPage2 b1 row (fun k => op1 fun ff => k (.sp1 ff)) rest
    | _ => .error (.unassignedPage2 b1)

/-- The instruction some bytes begin with (R81). Total: every list of bytes gives an instruction or an error by name. -/
def decode : List Byte → Decoded
  | [] => .error .truncated
  | b0 :: rest => if b0 = prebyte then decodePage2 rest else decodePage1 b0 rest

/-- The high byte of a two-byte operand field. -/
def hiByte (v : Word) : Byte :=
  v.extractLsb' 8 8

/-- The low byte of a two-byte operand field. -/
def loByte (v : Word) : Byte :=
  v.extractLsb' 0 8

/-- The words of a read-modify-write instruction on memory: its opcode in column 3 plus the column's distance (R160). A
form the group does not have has no words. -/
def rmwWords (row : Byte) : Ea → List Byte
  | .dir dd => [0x30 + row, dd]
  | .ext _ => []
  | .ix2 _ => []
  | .ix1 ff => [0x60 + row, ff]
  | .ix => [0x70 + row]
  | .sp1 ff => [prebyte, 0x60 + row, ff]
  | .sp2 _ => []

/-- The words of a register/memory instruction on memory (R230). -/
def memWords (row : Byte) : Ea → List Byte
  | .dir dd => [0xB0 + row, dd]
  | .ext v => [0xC0 + row, hiByte v, loByte v]
  | .ix2 v => [0xD0 + row, hiByte v, loByte v]
  | .ix1 ff => [0xE0 + row, ff]
  | .ix => [0xF0 + row]
  | .sp1 ff => [prebyte, 0xE0 + row, ff]
  | .sp2 v => [prebyte, 0xD0 + row, hiByte v, loByte v]

/-- The words of a register/memory instruction that reads a byte (R230). -/
def srcWords (row : Byte) : Src → List Byte
  | .imm ii => [0xA0 + row, ii]
  | .mem ea => memWords row ea

/-- The words of JMP and JSR (R240, R241). They have no SP forms. -/
def jumpWords (row : Byte) : Ea → List Byte
  | .sp1 _ => []
  | .sp2 _ => []
  | .dir dd => memWords row (.dir dd)
  | .ext v => memWords row (.ext v)
  | .ix2 v => memWords row (.ix2 v)
  | .ix1 ff => memWords row (.ix1 ff)
  | .ix => memWords row .ix

/-- The words of DBNZ on memory (R183). -/
def dbnzWords (rr : Byte) : Ea → List Byte
  | .dir dd => [0x3B, dd, rr]
  | .ext _ => []
  | .ix2 _ => []
  | .ix1 ff => [0x6B, ff, rr]
  | .ix => [0x7B, rr]
  | .sp1 ff => [prebyte, 0x6B, ff, rr]
  | .sp2 _ => []

/-- The words of CBEQ on memory (R180). -/
def cbeqWords (rr : Byte) : CbeqForm → List Byte
  | .dir dd => [0x31, dd, rr]
  | .ix1p ff => [0x61, ff, rr]
  | .ixp => [0x71, rr]
  | .sp1 ff => [prebyte, 0x61, ff, rr]

/-- The words of MOV (R186). -/
def movWords : MovForm → List Byte
  | .dd src dst => [0x4E, src, dst]
  | .dixp src => [0x5E, src]
  | .imd ii dst => [0x6E, ii, dst]
  | .ixpd dst => [0x7E, dst]

/-- The words of LDHX (R185) and CPHX (R181): the opcodes of their two forms. -/
def word16Words (opImm opDir : Byte) : Src16 → List Byte
  | .imm v => [opImm, hiByte v, loByte v]
  | .dir dd => [opDir, dd]

/-- The opcode of a bit instruction, `000 t nnn c` (R106). -/
def bitOpcode (t : BitVec 1) (n : BitVec 3) (c : BitVec 1) : Byte :=
  (0 : BitVec 3) ++ t ++ n ++ c

/-- The words of an instruction, in the order they lie in memory (R82). A form an instruction does not have (one that is
not well-formed) has none. -/
def encode : Instr → List Byte
  | .brset n dd rr => [bitOpcode 0 n 0, dd, rr]
  | .brclr n dd rr => [bitOpcode 0 n 1, dd, rr]
  | .bset n dd => [bitOpcode 1 n 0, dd]
  | .bclr n dd => [bitOpcode 1 n 1, dd]
  | .bra rr => [0x20, rr]
  | .brn rr => [0x21, rr]
  | .bhi rr => [0x22, rr]
  | .bls rr => [0x23, rr]
  | .bcc rr => [0x24, rr]
  | .bcs rr => [0x25, rr]
  | .bne rr => [0x26, rr]
  | .beq rr => [0x27, rr]
  | .bhcc rr => [0x28, rr]
  | .bhcs rr => [0x29, rr]
  | .bpl rr => [0x2A, rr]
  | .bmi rr => [0x2B, rr]
  | .bmc rr => [0x2C, rr]
  | .bms rr => [0x2D, rr]
  | .bil rr => [0x2E, rr]
  | .bih rr => [0x2F, rr]
  | .neg ea => rmwWords 0x0 ea
  | .cbeq form rr => cbeqWords rr form
  | .com ea => rmwWords 0x3 ea
  | .lsr ea => rmwWords 0x4 ea
  | .sthx dd => [0x35, dd]
  | .ror ea => rmwWords 0x6 ea
  | .asr ea => rmwWords 0x7 ea
  | .lsl ea => rmwWords 0x8 ea
  | .rol ea => rmwWords 0x9 ea
  | .dec ea => rmwWords 0xA ea
  | .dbnz ea rr => dbnzWords rr ea
  | .inc ea => rmwWords 0xC ea
  | .tst ea => rmwWords 0xD ea
  | .clr ea => rmwWords 0xF ea
  | .nega => [0x40]
  | .cbeqa ii rr => [0x41, ii, rr]
  | .mul => [0x42]
  | .coma => [0x43]
  | .lsra => [0x44]
  | .ldhx src => word16Words 0x45 0x55 src
  | .rora => [0x46]
  | .asra => [0x47]
  | .lsla => [0x48]
  | .rola => [0x49]
  | .deca => [0x4A]
  | .dbnza rr => [0x4B, rr]
  | .inca => [0x4C]
  | .tsta => [0x4D]
  | .mov form => movWords form
  | .clra => [0x4F]
  | .negx => [0x50]
  | .cbeqx ii rr => [0x51, ii, rr]
  | .div => [0x52]
  | .comx => [0x53]
  | .lsrx => [0x54]
  | .rorx => [0x56]
  | .asrx => [0x57]
  | .lslx => [0x58]
  | .rolx => [0x59]
  | .decx => [0x5A]
  | .dbnzx rr => [0x5B, rr]
  | .incx => [0x5C]
  | .tstx => [0x5D]
  | .clrx => [0x5F]
  | .nsa => [0x62]
  | .cphx src => word16Words 0x65 0x75 src
  | .daa => [0x72]
  | .rti => [0x80]
  | .rts => [0x81]
  | .swi => [0x83]
  | .tap => [0x84]
  | .tpa => [0x85]
  | .pula => [0x86]
  | .psha => [0x87]
  | .pulx => [0x88]
  | .pshx => [0x89]
  | .pulh => [0x8A]
  | .pshh => [0x8B]
  | .clrh => [0x8C]
  | .stop => [0x8E]
  | .wait => [0x8F]
  | .bge rr => [0x90, rr]
  | .blt rr => [0x91, rr]
  | .bgt rr => [0x92, rr]
  | .ble rr => [0x93, rr]
  | .txs => [0x94]
  | .tsx => [0x95]
  | .tax => [0x97]
  | .clc => [0x98]
  | .sec => [0x99]
  | .cli => [0x9A]
  | .sei => [0x9B]
  | .rsp => [0x9C]
  | .nop => [0x9D]
  | .txa => [0x9F]
  | .sub src => srcWords 0x0 src
  | .cmp src => srcWords 0x1 src
  | .sbc src => srcWords 0x2 src
  | .cpx src => srcWords 0x3 src
  | .and src => srcWords 0x4 src
  | .bit src => srcWords 0x5 src
  | .lda src => srcWords 0x6 src
  | .ais ii => [0xA7, ii]
  | .eor src => srcWords 0x8 src
  | .adc src => srcWords 0x9 src
  | .ora src => srcWords 0xA src
  | .add src => srcWords 0xB src
  | .bsr rr => [0xAD, rr]
  | .ldx src => srcWords 0xE src
  | .aix ii => [0xAF, ii]
  | .sta ea => memWords 0x7 ea
  | .jmp ea => jumpWords 0xC ea
  | .jsr ea => jumpWords 0xD ea
  | .stx ea => memWords 0xF ea
  | .asl ea => rmwWords 0x8 ea
  | .asla => [0x48]
  | .aslx => [0x58]
  | .bhs rr => [0x24, rr]
  | .blo rr => [0x25, rr]

/-- The bytes, padded with zeros to the longest instruction, of an instruction whose `nbits` bits are `w` in the
numbering of spec/opcode_table.json: the whole instruction as one big-endian number, the first byte the most significant
(30_encoding.md, layout of the table; log 30). -/
def tableBytes (nbits w : Nat) : List Byte :=
  let n := nbits / 8
  [0, 1, 2, 3].map fun k => if k < n then BitVec.ofNat 8 (w >>> (8 * (n - 1 - k))) else 0

/-- The instruction the decoder reads from an instruction whose bits are `w`, numbered as spec/opcode_table.json numbers
them. -/
def decodeTableWord (nbits w : Nat) : Option Instr :=
  (decode (tableBytes nbits w)).toOption

end Sys2Proof
end

