-- ==== Sys2Proof/Config.lean ====
section
/-! DEFINITION. What the spec leaves to the platform (the named parameters of 00_scope.md R4)
and the free values. The parameters are plain data that the state carries in its field `cfg` and no step changes, so a
statement about every state is a statement about every value of every parameter (log 1). The values
they have in `State.reset` are in Sys2Proof/Machine/Platform.lean. -/

namespace Sys2Proof

/-- What an unassigned encoding does (R101, R261): the spec's decision D2 is `fault`; `reset` is its alternative. -/
inductive IllegalAction where
  | fault
  | reset
  deriving DecidableEq, Repr

/-- The four classes of address of the parameter `mem_map` (20_memory.md R60). -/
inductive RegionKind where
  | ram
  | rom
  | device
  | unimplemented
  deriving DecidableEq, Repr

/-- `size` addresses of one class from `base` on, counted modulo 65536 (R57, R60). -/
structure Region where
  base : Word
  size : Nat
  kind : RegionKind
  deriving DecidableEq, Repr

/-- One on-chip interrupt source of the parameter `int_sources` (60_exceptions.md R263): the name the environment uses
for it, the address of its vector, and its rank. A lower number is the better rank (DESIGN CHOICE, log 14). -/
structure IntSource where
  name : Nat
  vector : Word
  rank : Nat
  deriving DecidableEq, Repr

/-- One way in which a run can end, by the values D31 suggests for the parameter `run_end` (R4). -/
inductive EndCondition where
  /-- A branch to itself (`BRA *`, bytes `20 FE`) stands at PC. -/
  | selfBranch
  /-- PC reaches an address. -/
  | atPc (pc : Word)
  /-- The stopped state, and nothing will wake the machine. -/
  | neverWakes
  /-- A budget of steps is used up. -/
  | steps (budget : Nat)
  deriving DecidableEq, Repr

/-- The named parameters of R4. -/
structure Platform where
  /-- `ccr_bits65`: what CCR bits 6 and 5 read as (R33). -/
  ccrBits65 : BitVec 2
  /-- `rsp_keeps_high`: whether RSP leaves the high byte of SP (R209). -/
  rspKeepsHigh : Bool
  /-- `illegal_opcode_action` (R101). -/
  illegalAction : IllegalAction
  /-- `reset_state`: the values a reset gives SP, H and I (R37, R292). -/
  resetSp : Word
  resetH : Byte
  resetI : Bool
  /-- What a reset makes the enable of the /IRQ pin interrupt (log 15). -/
  resetIrqEnable : Bool
  /-- `reset_vector_addr` (R37, R58). -/
  resetVector : Word
  /-- The vector of the /IRQ pin, which is always a source, and its rank (R263). -/
  irqVector : Word
  irqRank : Nat
  /-- `int_sources`: the on-chip sources beside the /IRQ pin (R263). -/
  sources : List IntSource
  /-- `mem_map`: the first region that holds an address gives its class; an address in no region is `ram` (R60). -/
  memMap : List Region
  /-- `run_end`: a run ends when one of these holds (log 34). -/
  runEnd : List EndCondition
  deriving DecidableEq, Repr

/-- The n-th free byte, `draw(8)` of R12: no value of it can be proved (log 8). -/
opaque Config.freeByte : Nat → Byte

/-- The n-th free bit, `draw(1)` of R12: no value of it can be proved (log 8). -/
opaque Config.freeBit : Nat → Bool

end Sys2Proof
end

