-- ==== Sys2Proof/Machine/Platform.lean ====
section
/-! DEFINITION. The values of the platform parameters in `State.reset`, and the constants the machine uses. -/

namespace Sys2Proof.Machine

/-- The values the parameters have in `State.reset`. PRESUMED, the family's (unsafe): `ccrBits65` (log 2), `resetSp`,
`resetH`, `resetI`, `resetVector` (log 4), `irqVector` (log 14). DESIGN CHOICE (unsafe): the others (logs 3, 9, 12, 14, 15, 34). -/
def platform : Platform where
  ccrBits65 := 0b11
  rspKeepsHigh := false
  illegalAction := .fault
  resetSp := 0x00FF
  resetH := 0x00
  resetI := true
  resetIrqEnable := true
  resetVector := 0xFFFE
  irqVector := 0xFFFA
  irqRank := 0
  sources := []
  memMap := []
  runEnd := []

/-- The address of the SWI vector (R50, R58, R262). -/
def swiVector : Word := 0xFFFC

/-- The processor cycles of the STOP recovery delay (R275, R303). -/
def stopRecoveryCycles : Nat := 4095

/-- What a byte of memory that nothing has written reads as. DESIGN CHOICE, unsafe (log 6; U7). -/
def unlistedByte : Byte := 0x00

end Sys2Proof.Machine
end

