-- ==== Sys2Proof/Machine/State.lean ====
section
/-! DEFINITION. The state of the machine as plain data: the registers (10_state.md R21 to R33), the state the source names
outside them (R35), memory (20_memory.md R50), the environment's inputs (00_scope.md R19) and the platform parameters (R4). -/

namespace Sys2Proof.Machine

/-- Why a step stops with a fault. All of them are the spec's own model-level faults, and all are safe: the model stops
where the spec says that a model stops. -/
inductive Fault where
  /-- `IllegalOpcode(PC0, bytes)` (R101, R261): the bytes at `pc` spell no instruction. Raised by the step. Safe. -/
  | illegalOpcode (pc : Word) (bytes : List Byte)
  /-- A data read of an address the platform does not implement (R60, R261). Raised by `State.readByte`. Safe. -/
  | unimplementedRead (addr : Word)
  /-- A data write to an address the platform does not implement (R60, R261). Raised by `State.writeByte`. Safe. -/
  | unimplementedWrite (addr : Word)
  /-- An instruction fetch from a device or an unimplemented address (R60). Raised by the step. Safe. -/
  | fetchFromNonMemory (addr : Word)
  deriving DecidableEq, Repr

/-- Why the model refuses. -/
inductive Refusal where
  /-- An instruction with no meaning yet. Raised by `exec` only (no arm of it does). Safe. -/
  | notModelled (mnemonic : String)
  deriving DecidableEq, Repr

/-- The six flags of the condition code register (R26 to R32). Bits 6 and 5 of the register have no storage (R33). -/
structure Flags where
  v : Bool
  h : Bool
  i : Bool
  n : Bool
  z : Bool
  c : Bool
  deriving DecidableEq, Repr

/-- The run state of the CPU (R35): running, waiting after WAIT (R276), stopped after STOP (R275), or in the recovery
delay that ends the stopped state (R303), with the cycles still to pass and whether /RESET (not /IRQ) woke it. -/
inductive RunState where
  | running
  | waiting
  | stopped
  | recovering (cyclesLeft : Nat) (byReset : Bool)
  deriving DecidableEq, Repr

/-- What the previous instruction did to the interrupt mask, as far as R265, R296 and R297 let it matter at the boundary
after it: SEI (or TAP) took I from 0 to 1; CLI (or a TAP or RTI taking I from 1 to 0) cleared it. -/
inductive MaskHistory where
  | none
  | justSet
  | justCleared
  deriving DecidableEq, Repr

/-- What the environment presents at one instruction boundary (R19): whether /RESET is low, the level of the /IRQ pin
(true is logic 1), the names of the on-chip sources whose request is pending, its choice where R265 leaves one, and, if /RESET
goes low inside the instruction or the entry that begins here, how many data accesses that has made by then (R290, log 19). -/
structure Inputs where
  reset : Bool
  irqPin : Bool
  requests : List Nat
  choice : Bool
  cut : Option Nat
  deriving DecidableEq, Repr

/-- Memory: the bytes that differ from what an unlisted address reads as, by address (R50). -/
abbrev Memory := List Host.Cell

/-- The state of the machine. -/
structure State where
  /-- The accumulator (R22). -/
  a : Byte
  /-- The high byte of the index register (R23). -/
  h : Byte
  /-- The low byte of the index register (R23). -/
  x : Byte
  /-- The stack pointer (R24). -/
  sp : Word
  /-- The program counter: the address of the next instruction (R25). -/
  pc : Word
  /-- The flags (R26). -/
  ccr : Flags
  /-- The run state (R35). -/
  run : RunState
  /-- The mask history (R35 (b), R265). -/
  mask : MaskHistory
  /-- The enable of the /IRQ pin interrupt (R263, R275). -/
  irqEnable : Bool
  /-- The memory (R50). -/
  mem : Memory
  /-- What the environment presents at this boundary (R19). -/
  env : Inputs
  /-- What it presents at later boundaries. When none is left, the inputs stay as they are (log 13). -/
  future : List Inputs
  /-- How many free values have been drawn (R12, log 8). -/
  draws : Nat
  /-- The writes handed to devices, newest first (R60, log 10). -/
  devOut : List Host.Cell
  /-- The platform parameters (R4, log 1). -/
  cfg : Platform
  deriving DecidableEq, Repr

/-- A quiet environment: no reset, the /IRQ pin at logic 1, no request (log 13). -/
def Inputs.quiet : Inputs where
  reset := false
  irqPin := true
  requests := []
  choice := false
  cut := none

/-- The machine right after a reset at power-on, with nothing loaded (R37). SP, H, I and the vector's address are the
family's (PRESUMED, log 4); A, X and the other flags are draws in the spec and 0 here (DESIGN CHOICE, unsafe, log 5); PC
is what the reset vector holds in a memory with nothing listed (log 7). -/
def State.reset : State where
  a := 0
  h := platform.resetH
  x := 0
  sp := platform.resetSp
  pc := unlistedByte ++ unlistedByte
  ccr := { v := false, h := false, i := platform.resetI, n := false, z := false, c := false }
  run := .running
  mask := .none
  irqEnable := platform.resetIrqEnable
  mem := []
  env := Inputs.quiet
  future := []
  draws := 0
  devOut := []
  cfg := platform

end Sys2Proof.Machine
end

