-- ==== Sys2Proof/Machine/Flags.lean ====
section
/-! DEFINITION. The arithmetic of the machine on bit patterns, computed on integers and narrowed at the end, and every
flag computation of the spec (00_scope.md R13 to R17, 10_state.md R27 to R32, R39). -/

namespace Sys2Proof.Machine

/-- A result byte with the flags an addition computes (R13). -/
structure AddResult where
  r : Byte
  v : Bool
  h : Bool
  n : Bool
  z : Bool
  c : Bool
  deriving DecidableEq, Repr

/-- A result byte with the flags a subtraction, a shift or a decrement computes. -/
structure ByteResult where
  r : Byte
  v : Bool
  n : Bool
  z : Bool
  c : Bool
  deriving DecidableEq, Repr

/-- `add8` (R13): sum, carry out of bit 7, carry out of bit 3, signed overflow (PRESUMED, D11, log 20). -/
def add8 (a b : Byte) (cin : Bool) : AddResult :=
  let s := a.toNat + b.toNat + cin.toNat
  let r : Byte := BitVec.ofNat 8 s
  { r := r
    v := a.msb == b.msb && r.msb != a.msb
    h := decide (a.toNat % 16 + b.toNat % 16 + cin.toNat > 15)
    n := r.msb
    z := r == 0
    c := decide (s > 255) }

/-- `sub8` (R14): difference, borrow, signed overflow (PRESUMED, D11, log 20). It yields no half-carry (log 23). -/
def sub8 (a b : Byte) (bin : Bool) : ByteResult :=
  let d : Int := a.toNat - b.toNat - bin.toNat
  let r : Byte := BitVec.ofInt 8 d
  { r := r
    v := a.msb != b.msb && r.msb != a.msb
    n := r.msb
    z := r == 0
    c := decide (d < 0) }

/-- The flags `sub16` computes (R15; the 16-bit reading is PRESUMED, D24, log 26). -/
structure WordFlags where
  v : Bool
  n : Bool
  z : Bool
  c : Bool
  deriving DecidableEq, Repr

/-- `sub16` (R15), whose result CPHX discards. -/
def sub16 (a b : Word) : WordFlags :=
  let d : Int := a.toNat - b.toNat
  let r : Word := BitVec.ofInt 16 d
  { v := a.msb != b.msb && r.msb != a.msb
    n := r.msb
    z := r == 0
    c := decide (d < 0) }

/-- The flags of an addition: V, H, N, Z, C (R231, R232). -/
def Flags.ofAdd (f : Flags) (r : AddResult) : Flags :=
  { f with v := r.v, h := r.h, n := r.n, z := r.z, c := r.c }

/-- The flags of a subtraction, a comparison, a shift or a rotate: V, N, Z, C (R39). -/
def Flags.ofByte (f : Flags) (r : ByteResult) : Flags :=
  { f with v := r.v, n := r.n, z := r.z, c := r.c }

/-- The flags of INC and DEC: V, N, Z (R165, R166). C is not written (R299). -/
def Flags.ofStep (f : Flags) (r : ByteResult) : Flags :=
  { f with v := r.v, n := r.n, z := r.z }

/-- The flags of CPHX: V, N, Z, C (R181). -/
def Flags.ofWord (f : Flags) (r : WordFlags) : Flags :=
  { f with v := r.v, n := r.n, z := r.z, c := r.c }

/-- V cleared, N and Z from a byte (`nz8`, R16): loads, stores, logic, MOV, TST. -/
def Flags.logic8 (f : Flags) (r : Byte) : Flags :=
  { f with v := false, n := r.msb, z := r == 0 }

/-- V cleared, N and Z from 16 bits (`nz16`, R16; PRESUMED, D24, log 26): LDHX and STHX. -/
def Flags.logic16 (f : Flags) (r : Word) : Flags :=
  { f with v := false, n := r.msb, z := r == 0 }

/-- The flags of COM: as for logic, and C set (R164). -/
def Flags.ofCom (f : Flags) (r : Byte) : Flags :=
  { f.logic8 r with c := true }

/-- A shift or rotate with result `r` that shifted out `c`: `V = N xor C` (R160; PRESUMED, D11, log 20). -/
def shiftResult (r : Byte) (c : Bool) : ByteResult :=
  { r := r, v := r.msb ^^ c, n := r.msb, z := r == 0, c := c }

/-- LSL and ASL: bit 7 goes to C, 0 comes in (R161, R167). -/
def lsl8 (old : Byte) : ByteResult :=
  shiftResult (BitVec.ofNat 8 (old.toNat * 2)) old.msb

/-- LSR: bit 0 goes to C, 0 comes in (R168). -/
def lsr8 (old : Byte) : ByteResult :=
  shiftResult (BitVec.ofNat 8 (old.toNat / 2)) (old.getLsbD 0)

/-- ASR: bit 0 goes to C, bit 7 keeps its value (R162). -/
def asr8 (old : Byte) : ByteResult :=
  shiftResult (BitVec.ofNat 8 (old.toNat / 2 + old.msb.toNat * 128)) (old.getLsbD 0)

/-- ROL: bit 7 goes to C, the old C comes in at bit 0 (R170). -/
def rol8 (old : Byte) (c : Bool) : ByteResult :=
  shiftResult (BitVec.ofNat 8 (old.toNat * 2 + c.toNat)) old.msb

/-- ROR: bit 0 goes to C, the old C comes in at bit 7 (R171). -/
def ror8 (old : Byte) (c : Bool) : ByteResult :=
  shiftResult (BitVec.ofNat 8 (old.toNat / 2 + c.toNat * 128)) (old.getLsbD 0)

/-- NEG: the subtraction from `$00` (R169). -/
def neg8 (old : Byte) : ByteResult :=
  sub8 0 old false

/-- INC: the result with V = (old = `$7F`) (R166); `c` is not written by INC. -/
def inc8 (old : Byte) : ByteResult :=
  let r : Byte := BitVec.ofNat 8 (old.toNat + 1)
  { r := r, v := old == 0x7F, n := r.msb, z := r == 0, c := false }

/-- DEC: the result with V = (old = `$80`) (R165); `c` is not written by DEC. -/
def dec8 (old : Byte) : ByteResult :=
  let r : Byte := BitVec.ofNat 8 (old.toNat + 255)
  { r := r, v := old == 0x80, n := r.msb, z := r == 0, c := false }

/-- The CCR as the byte that TPA delivers and an entry stacks: V, the two bits of the parameter, H, I, N, Z, C (R33). -/
def Flags.toByte (f : Flags) (bits65 : BitVec 2) : Byte :=
  BitVec.ofBool f.v ++ bits65 ++ BitVec.ofBool f.h ++ BitVec.ofBool f.i ++ BitVec.ofBool f.n ++ BitVec.ofBool f.z ++
    BitVec.ofBool f.c

/-- The flags a byte sets in TAP and RTI: bits 7, 4, 3, 2, 1, 0. Bits 6 and 5 are ignored (R33, R210, R216). -/
def Flags.ofCcrByte (b : Byte) : Flags :=
  { v := b.getLsbD 7, h := b.getLsbD 4, i := b.getLsbD 3, n := b.getLsbD 2, z := b.getLsbD 1, c := b.getLsbD 0 }

/-- One row of the DAA table (R182): initial C, range of A[7:4], initial H, range of A[3:0], correction, corrected C. -/
structure DaaRow where
  c : Bool
  hiMin : Nat
  hiMax : Nat
  h : Bool
  loMin : Nat
  loMax : Nat
  correction : Byte
  newC : Bool
  deriving DecidableEq, Repr

/-- The nine rows of the DAA table, rows 1 to 9 (R182; its digit ranges are DEDUCED, log 29). -/
def daaTable : List DaaRow :=
  [⟨false, 0, 9, false, 0, 9, 0x00, false⟩,
   ⟨false, 0, 8, false, 10, 15, 0x06, false⟩,
   ⟨false, 0, 9, true, 0, 3, 0x06, false⟩,
   ⟨false, 10, 15, false, 0, 9, 0x60, true⟩,
   ⟨false, 9, 15, false, 10, 15, 0x66, true⟩,
   ⟨false, 10, 15, true, 0, 3, 0x66, true⟩,
   ⟨true, 0, 2, false, 0, 9, 0x60, true⟩,
   ⟨true, 0, 2, false, 10, 15, 0x66, true⟩,
   ⟨true, 0, 3, true, 0, 3, 0x66, true⟩]

/-- Whether a row of the DAA table covers C, H and A. -/
def DaaRow.covers (row : DaaRow) (c h : Bool) (a : Byte) : Bool :=
  let hi := a.toNat / 16
  let lo := a.toNat % 16
  row.c == c && row.h == h && decide (row.hiMin ≤ hi) && decide (hi ≤ row.hiMax) && decide (row.loMin ≤ lo) &&
    decide (lo ≤ row.loMax)

/-- The row of the DAA table that covers C, H and A, if one does (R182). -/
def daaRow (c h : Bool) (a : Byte) : Option DaaRow :=
  daaTable.find? fun row => row.covers c h a

/-- `sext_16` (R6). -/
def sext16 (v : Byte) : Word :=
  BitVec.ofInt 16 v.toInt

/-- `zext_16` (R6). -/
def zext16 (v : Byte) : Word :=
  BitVec.ofNat 16 v.toNat

end Sys2Proof.Machine
end

