-- ==== Sys2Proof/Machine/Ops.lean ====
section
/-! DEFINITION. The named operations: updates of the registers, the memory primitives (00_scope.md R8, 20_memory.md R60),
the stack primitives (R9), free values (R12), instruction fetch (R105), taking an exception (60_exceptions.md R266), the
return from one (R270) and the reset sequence (70_reset_and_hazards.md R291). An operation that can stop hands what it
read, and the state after it, to a continuation. -/

namespace Sys2Proof.Machine

/-- What a step, an instruction or an operation answers. -/
abbrev Out := Host.Outcome State Fault Refusal

/-- Change the next state of an answer, if there is one. -/
def mapNext (f : State → State) : Out → Out
  | .next s => .next (f s)
  | .fault r => .fault r
  | .refused r => .refused r

/-! ### Registers -/

/-- The 16-bit index register `H:X` (R7, R23). -/
def State.hx (s : State) : Word :=
  s.h ++ s.x

/-- Write A. -/
def State.setA (s : State) (v : Byte) : State :=
  { s with a := v }

/-- Write H alone. -/
def State.setH (s : State) (v : Byte) : State :=
  { s with h := v }

/-- Write X alone; H is untouched (R23). -/
def State.setX (s : State) (v : Byte) : State :=
  { s with x := v }

/-- Write `H:X` (R7). -/
def State.setHx (s : State) (v : Word) : State :=
  { s with h := hiByte v, x := loByte v }

/-- Write SP. -/
def State.setSp (s : State) (v : Word) : State :=
  { s with sp := v }

/-- Write PC. -/
def State.setPc (s : State) (v : Word) : State :=
  { s with pc := v }

/-- Write the flags. -/
def State.setCcr (s : State) (f : Flags) : State :=
  { s with ccr := f }

/-- Write the run state. -/
def State.setRun (s : State) (r : RunState) : State :=
  { s with run := r }

/-- Write the mask history. -/
def State.setMask (s : State) (m : MaskHistory) : State :=
  { s with mask := m }

/-- Write the enable of the /IRQ pin interrupt. -/
def State.setIrqEnable (s : State) (b : Bool) : State :=
  { s with irqEnable := b }

/-- Write the memory. -/
def State.setMem (s : State) (m : Memory) : State :=
  { s with mem := m }

/-- Count some drawn free values. -/
def State.drew (s : State) (n : Nat) : State :=
  { s with draws := s.draws + n }

/-- Hand a write to a device (R60). -/
def State.pushDev (s : State) (c : Host.Cell) : State :=
  { s with devOut := c :: s.devOut }

/-- The address of the instruction that follows one of `len` bytes (R10, R57). -/
def State.nextPc (s : State) (len : Nat) : Word :=
  s.pc + BitVec.ofNat 16 len

/-- `PC <- next` (R10). -/
def State.advance (s : State) (len : Nat) : State :=
  s.setPc (s.nextPc len)

/-- The target of a relative branch: `next + sext_16(rr)` (R94; the sign is PRESUMED, D7, log 21). -/
def State.branchTarget (s : State) (len : Nat) (rr : Byte) : Word :=
  s.nextPc len + sext16 rr

/-- `PC <- target` if the condition holds, else `PC <- next` (R130). -/
def State.branch (s : State) (len : Nat) (rr : Byte) (cond : Bool) : State :=
  s.setPc (if cond then s.branchTarget len rr else s.nextPc len)

/-! ### Memory -/

/-- Whether a region holds an address, counting modulo 65536 (R57). -/
def regionHolds (r : Region) (addr : Word) : Bool :=
  decide ((addr - r.base).toNat < r.size)

/-- The class of an address by a memory map (R60): that of the first region that holds it, else `ram` (log 9). -/
def kindIn (map : List Region) (addr : Word) : RegionKind :=
  match map.find? (fun r => regionHolds r addr) with
  | some r => r.kind
  | none => .ram

/-- The class of an address (R60). -/
def State.kind (s : State) (addr : Word) : RegionKind :=
  kindIn s.cfg.memMap addr

/-- Whether a data access to an address is possible (R60). -/
def State.present (s : State) (addr : Word) : Bool :=
  s.kind addr != .unimplemented

/-- The byte memory holds at an address. -/
def State.peek (s : State) (addr : Word) : Byte :=
  s.mem.read addr.toNat

/-- The value a data read of an address returns: a free value at a device, the byte of memory elsewhere (R60). -/
def State.byteAt (s : State) (addr : Word) : Byte :=
  if s.kind addr = .device then Config.freeByte s.draws else s.peek addr

/-- The state after a data read of an address: a read of a device draws a value (R60). -/
def State.afterRead (s : State) (addr : Word) : State :=
  if s.kind addr = .device then s.drew 1 else s

/-- `MemRead(addr, 1)` (R8). -/
def State.readByte (s : State) (addr : Word) (k : Byte → State → Out) : Out :=
  if s.present addr then k (s.byteAt addr) (s.afterRead addr) else .fault (.unimplementedRead addr)

/-- The state after a data write: `ram` keeps the byte, `rom` ignores it, a device is handed it (R60). -/
def State.afterWrite (s : State) (addr : Word) (v : Byte) : State :=
  match s.kind addr with
  | .ram => s.setMem (s.mem.write addr.toNat v)
  | .rom => s
  | .device => s.pushDev (addr.toNat, v)
  | .unimplemented => s

/-- `MemWrite(addr, 1, v)` (R8). -/
def State.writeByte (s : State) (addr : Word) (v : Byte) (k : State → Out) : Out :=
  if s.present addr then k (s.afterWrite addr v) else .fault (.unimplementedWrite addr)

/-- `MemRead(addr, 2)`: the high byte at the lower address, read first (R8, R52). -/
def State.readWord (s : State) (addr : Word) (k : Word → State → Out) : Out :=
  s.readByte addr fun hi s1 => s1.readByte (addr + 1) fun lo s2 => k (wordOf hi lo) s2

/-- `MemWrite(addr, 2, v)`: the high byte to the lower address, written first (R8, R52). -/
def State.writeWord (s : State) (addr : Word) (v : Word) (k : State → Out) : Out :=
  s.writeByte addr (hiByte v) fun s1 => s1.writeByte (addr + 1) (loByte v) k

/-! ### The stack -/

/-- `Push(v)`: write at SP, then decrement SP (R9). -/
def State.push (s : State) (v : Byte) (k : State → Out) : Out :=
  s.writeByte s.sp v fun s1 => k (s1.setSp (s1.sp - 1))

/-- `Pull()`: increment SP, then read at SP (R9). -/
def State.pull (s : State) (k : Byte → State → Out) : Out :=
  (s.setSp (s.sp + 1)).readByte (s.sp + 1) k

/-- Push a return address: the low byte first, so that the high byte lies below it (R59). -/
def State.pushWord (s : State) (v : Word) (k : State → Out) : Out :=
  s.push (loByte v) fun s1 => s1.push (hiByte v) k

/-- Pull an address: the high byte first (R211). -/
def State.pullWord (s : State) (k : Word → State → Out) : Out :=
  s.pull fun hi s1 => s1.pull fun lo s2 => k (wordOf hi lo) s2

/-! ### Exceptions -/

/-- Taking an exception (R266 to R269): stack the return address, X, A and the CCR, set I, load PC from the vector. SWI
and hardware interrupts share it (D6, log 16). -/
def State.takeException (s : State) (ret vector : Word) : Out :=
  s.pushWord ret fun s1 => s1.push s1.x fun s2 => s2.push s2.a fun s3 =>
    s3.push (s3.ccr.toByte s3.cfg.ccrBits65) fun s4 =>
      (s4.setCcr { s4.ccr with i := true }).readWord vector fun target s5 =>
        .next ((s5.setPc target).setRun .running)

/-- The mask history after TAP: what a change of I makes of it (R216, R297). -/
def maskAfterTap (oldI newI : Bool) : MaskHistory :=
  match oldI, newI with
  | false, true => .justSet
  | true, false => .justCleared
  | _, _ => .none

/-- The mask history after RTI: a clearing of I counts, a setting opens no window (R265). -/
def maskAfterRti (oldI newI : Bool) : MaskHistory :=
  match oldI, newI with
  | true, false => .justCleared
  | _, _ => .none

/-- The return from an exception (R210, R270): pull CCR, A, X and PC. H is not restored (R269). -/
def State.returnFromException (s : State) : Out :=
  s.pull fun c s1 => s1.pull fun a s2 => s2.pull fun x s3 => s3.pullWord fun target s4 =>
    .next ((((((s4.setCcr (Flags.ofCcrByte c)).setA a).setX x).setPc target).setMask
      (maskAfterRti s.ccr.i (Flags.ofCcrByte c).i)))

/-- The registers a reset leaves, before PC is loaded (R37, R291, R292): SP, H and I from the parameter, the rest of A, X
and the flags drawn. -/
def State.resetRegisters (s : State) : State :=
  { s with
    a := Config.freeByte s.draws
    x := Config.freeByte (s.draws + 1)
    h := s.cfg.resetH
    sp := s.cfg.resetSp
    ccr :=
      { v := Config.freeBit (s.draws + 2), h := Config.freeBit (s.draws + 3), i := s.cfg.resetI,
        n := Config.freeBit (s.draws + 4), z := Config.freeBit (s.draws + 5), c := Config.freeBit (s.draws + 6) }
    run := .running
    mask := .none
    irqEnable := s.cfg.resetIrqEnable
    draws := s.draws + 7 }

/-- The reset sequence (R291): nothing is pushed, memory is not changed, PC is loaded from the reset vector. -/
def State.takeReset (s : State) : Out :=
  s.resetRegisters.readWord s.cfg.resetVector fun target s1 => .next (s1.setPc target)

/-! ### Instruction fetch -/

/-- Whether an instruction byte can be fetched from an address (R60). -/
def State.fetchable (s : State) (addr : Word) : Bool :=
  match s.kind addr with
  | .ram => true
  | .rom => true
  | .device => false
  | .unimplemented => false

/-- Up to `n` instruction bytes from an address on, at increasing addresses modulo 65536 (R53, R105), ending before the
first one that cannot be fetched. -/
def State.fetchFrom (s : State) : Nat → Word → List Byte
  | 0, _ => []
  | n + 1, addr => if s.fetchable addr then s.peek addr :: s.fetchFrom n (addr + 1) else []

/-- The bytes at PC, as many as the longest instruction has (R80). -/
def State.fetchBytes (s : State) : List Byte :=
  s.fetchFrom 4 s.pc

end Sys2Proof.Machine
end

