-- ==== Sys2Proof/Machine/Operands.lean ====
section
/-! DEFINITION. The operands: effective addresses (30_encoding.md R85 to R91), the byte or word an operand stands for
(R84, R108), and the shapes the families share. H:X and SP have in an address the value they have before the instruction
(D26, log 27). -/

namespace Sys2Proof.Machine

/-- The direct address `$00:dd` (R85). -/
def directAddr (dd : Byte) : Word :=
  zext16 dd

/-- The effective address of an addressing mode (R85 to R91). Offsets `ff` are unsigned (PRESUMED, D8, log 21). -/
def State.ea (s : State) : Ea → Word
  | .dir dd => directAddr dd
  | .ext v => v
  | .ix2 v => s.hx + v
  | .ix1 ff => s.hx + zext16 ff
  | .ix => s.hx
  | .sp1 ff => s.sp + zext16 ff
  | .sp2 v => s.sp + v

/-- The byte an operand stands for (R84, R230). -/
def State.readSrc (s : State) : Src → (Byte → State → Out) → Out
  | .imm ii, k => k ii s
  | .mem ea, k => s.readByte (s.ea ea) k

/-- The 16-bit operand of LDHX and CPHX (R108, R181, R185). -/
def State.readSrc16 (s : State) : Src16 → (Word → State → Out) → Out
  | .imm v, k => k v s
  | .dir dd, k => s.readWord (directAddr dd) k

/-- A register/memory instruction that reads its operand and writes registers and flags only (R230). -/
def withSrc (src : Src) (s : State) (f : Byte → State → State) : Out :=
  s.readSrc src fun m s1 => .next ((f m s1).advance src.length)

/-- A store: one write, no read; V, N, Z from the value stored (R246, R247). -/
def storeByte (ea : Ea) (v : Byte) (s : State) : Out :=
  s.writeByte (s.ea ea) v fun s1 => .next ((s1.setCcr (s1.ccr.logic8 v)).advance ea.length)

/-- A read-modify-write of a memory byte: one read, then one write to the same address (R56, R160). `f` gives the new
byte and the flags. -/
def rmwMem (f : Byte → Flags → Byte × Flags) (ea : Ea) (s : State) : Out :=
  s.readByte (s.ea ea) fun old s1 =>
    s1.writeByte (s.ea ea) (f old s1.ccr).1 fun s2 => .next ((s2.setCcr (f old s1.ccr).2).advance ea.length)

/-- The same operation on A (R160). -/
def rmwA (f : Byte → Flags → Byte × Flags) (s : State) : Out :=
  .next (((s.setA (f s.a s.ccr).1).setCcr (f s.a s.ccr).2).advance 1)

/-- The same operation on X; H is not touched (R160). -/
def rmwX (f : Byte → Flags → Byte × Flags) (s : State) : Out :=
  .next (((s.setX (f s.x s.ccr).1).setCcr (f s.x s.ccr).2).advance 1)

/-- A conditional branch of two bytes: it reads no data and changes no flag (R130). -/
def condBranch (rr : Byte) (cond : Bool) (s : State) : Out :=
  .next (s.branch 2 rr cond)

/-- An inherent instruction of one byte that only changes registers (R83). -/
def inherent (f : State → State) (s : State) : Out :=
  .next ((f s).advance 1)

/-- The post-increment of H:X by one, all 16 bits (R92, R93, R97, R98; D25, log 27). -/
def State.incHx (s : State) : State :=
  s.setHx (s.hx + 1)

end Sys2Proof.Machine
end

