-- ==== Sys2Proof/Machine/BitManip.lean ====
section
/-! DEFINITION. The bit manipulation instructions (40_bit_manipulation.md R120 to R124). -/

namespace Sys2Proof.Machine

/-- `1 << n` (R120). -/
def bitMask (n : BitVec 3) : Byte :=
  (1 : Byte) <<< n.toNat

/-- BSET and BCLR read the byte once and write it once, with one bit changed; no flag changes (R120). -/
def bitModify (f : Byte → Byte) (dd : Byte) (s : State) : Out :=
  s.readByte (directAddr dd) fun m s1 => s1.writeByte (directAddr dd) (f m) fun s2 => .next (s2.advance 2)

/-- BRSET and BRCLR read the byte once and never write it; C becomes the tested bit, taken or not (R120; D10, PRESUMED,
log 24). -/
def bitBranch (n : BitVec 3) (dd rr : Byte) (want : Bool) (s : State) : Out :=
  s.readByte (directAddr dd) fun m s1 =>
    .next ((s1.setCcr { s1.ccr with c := m.getLsbD n.toNat }).branch 3 rr (m.getLsbD n.toNat == want))

/-- BRSET (R123). -/
def execBrset (n : BitVec 3) (dd rr : Byte) (s : State) : Out :=
  bitBranch n dd rr true s

/-- BRCLR (R122). -/
def execBrclr (n : BitVec 3) (dd rr : Byte) (s : State) : Out :=
  bitBranch n dd rr false s

/-- BSET (R124). -/
def execBset (n : BitVec 3) (dd : Byte) (s : State) : Out :=
  bitModify (fun m => m ||| bitMask n) dd s

/-- BCLR (R121). -/
def execBclr (n : BitVec 3) (dd : Byte) (s : State) : Out :=
  bitModify (fun m => m &&& ~~~ bitMask n) dd s

end Sys2Proof.Machine
end

