-- ==== Sys2Proof/Machine/Rmw.lean ====
section
/-! DEFINITION. The read-modify-write instructions (42_read_modify_write.md R160 to R172). -/

namespace Sys2Proof.Machine

/-! The new byte and the new flags of each operation, from the old byte and the old flags. -/

/-- NEG (R169). -/
def negOp (old : Byte) (f : Flags) : Byte × Flags :=
  ((neg8 old).r, f.ofByte (neg8 old))

/-- COM (R164). -/
def comOp (old : Byte) (f : Flags) : Byte × Flags :=
  (~~~ old, f.ofCom (~~~ old))

/-- LSR (R168). -/
def lsrOp (old : Byte) (f : Flags) : Byte × Flags :=
  ((lsr8 old).r, f.ofByte (lsr8 old))

/-- ROR (R171). -/
def rorOp (old : Byte) (f : Flags) : Byte × Flags :=
  ((ror8 old f.c).r, f.ofByte (ror8 old f.c))

/-- ASR (R162). -/
def asrOp (old : Byte) (f : Flags) : Byte × Flags :=
  ((asr8 old).r, f.ofByte (asr8 old))

/-- LSL (R167). -/
def lslOp (old : Byte) (f : Flags) : Byte × Flags :=
  ((lsl8 old).r, f.ofByte (lsl8 old))

/-- ROL (R170). -/
def rolOp (old : Byte) (f : Flags) : Byte × Flags :=
  ((rol8 old f.c).r, f.ofByte (rol8 old f.c))

/-- DEC (R165). -/
def decOp (old : Byte) (f : Flags) : Byte × Flags :=
  ((dec8 old).r, f.ofStep (dec8 old))

/-- INC (R166). -/
def incOp (old : Byte) (f : Flags) : Byte × Flags :=
  ((inc8 old).r, f.ofStep (inc8 old))

/-- CLR of a register: V and N are cleared, Z is set (R163). -/
def clearedFlags (s : State) : State :=
  s.setCcr (s.ccr.logic8 0)

/-- TST of a value: V cleared, N and Z from it (R172). -/
def testedFlags (old : Byte) (s : State) : State :=
  s.setCcr (s.ccr.logic8 old)

/-! The instructions. -/

/-- NEG on memory (R169). -/
def execNeg (ea : Ea) (s : State) : Out :=
  rmwMem negOp ea s

/-- NEGA (R169). -/
def execNega (s : State) : Out :=
  rmwA negOp s

/-- NEGX (R169). -/
def execNegx (s : State) : Out :=
  rmwX negOp s

/-- COM on memory (R164). -/
def execCom (ea : Ea) (s : State) : Out :=
  rmwMem comOp ea s

/-- COMA (R164). -/
def execComa (s : State) : Out :=
  rmwA comOp s

/-- COMX (R164). -/
def execComx (s : State) : Out :=
  rmwX comOp s

/-- LSR on memory (R168). -/
def execLsr (ea : Ea) (s : State) : Out :=
  rmwMem lsrOp ea s

/-- LSRA (R168). -/
def execLsra (s : State) : Out :=
  rmwA lsrOp s

/-- LSRX (R168). -/
def execLsrx (s : State) : Out :=
  rmwX lsrOp s

/-- ROR on memory (R171). -/
def execRor (ea : Ea) (s : State) : Out :=
  rmwMem rorOp ea s

/-- RORA (R171). -/
def execRora (s : State) : Out :=
  rmwA rorOp s

/-- RORX (R171). -/
def execRorx (s : State) : Out :=
  rmwX rorOp s

/-- ASR on memory (R162). -/
def execAsr (ea : Ea) (s : State) : Out :=
  rmwMem asrOp ea s

/-- ASRA (R162). -/
def execAsra (s : State) : Out :=
  rmwA asrOp s

/-- ASRX (R162). -/
def execAsrx (s : State) : Out :=
  rmwX asrOp s

/-- LSL on memory (R167). -/
def execLsl (ea : Ea) (s : State) : Out :=
  rmwMem lslOp ea s

/-- LSLA (R167). -/
def execLsla (s : State) : Out :=
  rmwA lslOp s

/-- LSLX (R167). -/
def execLslx (s : State) : Out :=
  rmwX lslOp s

/-- ROL on memory (R170). -/
def execRol (ea : Ea) (s : State) : Out :=
  rmwMem rolOp ea s

/-- ROLA (R170). -/
def execRola (s : State) : Out :=
  rmwA rolOp s

/-- ROLX (R170). -/
def execRolx (s : State) : Out :=
  rmwX rolOp s

/-- DEC on memory (R165). -/
def execDec (ea : Ea) (s : State) : Out :=
  rmwMem decOp ea s

/-- DECA (R165). -/
def execDeca (s : State) : Out :=
  rmwA decOp s

/-- DECX (R165). -/
def execDecx (s : State) : Out :=
  rmwX decOp s

/-- INC on memory (R166). -/
def execInc (ea : Ea) (s : State) : Out :=
  rmwMem incOp ea s

/-- INCA (R166). -/
def execInca (s : State) : Out :=
  rmwA incOp s

/-- INCX (R166). -/
def execIncx (s : State) : Out :=
  rmwX incOp s

/-- ASL on memory (R161, a second name of LSL). -/
def execAsl (ea : Ea) (s : State) : Out :=
  rmwMem lslOp ea s

/-- ASLA (R161, a second name of LSL). -/
def execAsla (s : State) : Out :=
  rmwA lslOp s

/-- ASLX (R161, a second name of LSL). -/
def execAslx (s : State) : Out :=
  rmwX lslOp s

/-- TST on memory: one read, no write (R172). -/
def execTst (ea : Ea) (s : State) : Out :=
  s.readByte (s.ea ea) fun old s1 => .next ((testedFlags old s1).advance ea.length)

/-- TSTA (R172). -/
def execTsta (s : State) : Out :=
  inherent (fun s => testedFlags s.a s) s

/-- TSTX (R172). -/
def execTstx (s : State) : Out :=
  inherent (fun s => testedFlags s.x s) s

/-- CLR on memory: one write, no read (R163, R56; D15, log 25). -/
def execClr (ea : Ea) (s : State) : Out :=
  storeByte ea 0 s

/-- CLRA (R163). -/
def execClra (s : State) : Out :=
  inherent (fun s => clearedFlags (s.setA 0)) s

/-- CLRX: H is untouched (R163). -/
def execClrx (s : State) : Out :=
  inherent (fun s => clearedFlags (s.setX 0)) s

/-- CLRH: X is untouched (R163). -/
def execClrh (s : State) : Out :=
  inherent (fun s => clearedFlags (s.setH 0)) s

end Sys2Proof.Machine
end

