-- ==== Sys2Proof/Machine/RmwColumns.lean ====
section
/-! DEFINITION. The other instructions of the read-modify-write columns (43_rmw_column_other.md R180 to R189). -/

namespace Sys2Proof.Machine

/-- The address of the operand byte of CBEQ (R180), from the H:X before the post-increment (D26, log 27). -/
def State.cbeqEa (s : State) : CbeqForm → Word
  | .dir dd => s.ea (.dir dd)
  | .ix1p ff => s.ea (.ix1 ff)
  | .ixp => s.ea .ix
  | .sp1 ff => s.ea (.sp1 ff)

/-- The post-increment of CBEQ, taken or not (R180; D25, log 27). -/
def State.cbeqStep (s : State) : CbeqForm → State
  | .dir _ => s
  | .ix1p _ => s.incHx
  | .ixp => s.incHx
  | .sp1 _ => s

/-- CBEQ on memory: A is compared and no flag changes (R180). -/
def execCbeq (form : CbeqForm) (rr : Byte) (s : State) : Out :=
  s.readByte (s.cbeqEa form) fun m s1 => .next ((s1.cbeqStep form).branch form.length rr (s.a == m))

/-- CBEQA (R180). -/
def execCbeqa (ii rr : Byte) (s : State) : Out :=
  .next (s.branch 3 rr (s.a == ii))

/-- CBEQX (R180). -/
def execCbeqx (ii rr : Byte) (s : State) : Out :=
  .next (s.branch 3 rr (s.x == ii))

/-- The counter of DBNZ after one decrement (R183). -/
def countDown (old : Byte) : Byte :=
  BitVec.ofNat 8 (old.toNat + 255)

/-- DBNZ on memory: one read, one write, taken or not; no flag changes (R183). -/
def execDbnz (ea : Ea) (rr : Byte) (s : State) : Out :=
  s.readByte (s.ea ea) fun old s1 =>
    s1.writeByte (s.ea ea) (countDown old) fun s2 => .next (s2.branch (ea.length + 1) rr (countDown old != 0))

/-- DBNZA (R183). -/
def execDbnza (rr : Byte) (s : State) : Out :=
  .next ((s.setA (countDown s.a)).branch 2 rr (countDown s.a != 0))

/-- DBNZX: X alone (R183). -/
def execDbnzx (rr : Byte) (s : State) : Out :=
  .next ((s.setX (countDown s.x)).branch 2 rr (countDown s.x != 0))

/-- CPHX: the 16-bit difference is discarded (R181). -/
def execCphx (src : Src16) (s : State) : Out :=
  s.readSrc16 src fun m s1 => .next ((s1.setCcr (s1.ccr.ofWord (sub16 s.hx m))).advance src.length)

/-- LDHX (R185). -/
def execLdhx (src : Src16) (s : State) : Out :=
  s.readSrc16 src fun m s1 => .next (((s1.setHx m).setCcr (s1.ccr.logic16 m)).advance src.length)

/-- STHX: H to the lower address, first (R189; D22, log 25). -/
def execSthx (dd : Byte) (s : State) : Out :=
  s.writeWord (directAddr dd) s.hx fun s1 => .next ((s1.setCcr (s1.ccr.logic16 s.hx)).advance 2)

/-- The source byte of MOV (R186). -/
def State.movSource (s : State) : MovForm → (Byte → State → Out) → Out
  | .dd src _, k => s.readByte (directAddr src) k
  | .dixp src, k => s.readByte (directAddr src) k
  | .imd ii _, k => k ii s
  | .ixpd _, k => s.readByte s.hx k

/-- The destination address of MOV, from the H:X before the post-increment (R186; D26, log 27). -/
def State.movDest (s : State) : MovForm → Word
  | .dd _ dst => directAddr dst
  | .dixp _ => s.hx
  | .imd _ dst => directAddr dst
  | .ixpd dst => directAddr dst

/-- The post-increment of MOV (R186). -/
def State.movStep (s : State) : MovForm → State
  | .dd _ _ => s
  | .dixp _ => s.incHx
  | .imd _ _ => s
  | .ixpd _ => s.incHx

/-- MOV: the destination is written without being read (R186). -/
def execMov (form : MovForm) (s : State) : Out :=
  s.movSource form fun v s1 =>
    s1.writeByte (s.movDest form) v fun s2 =>
      .next (((s2.setCcr (s2.ccr.logic8 v)).movStep form).advance form.length)

/-- MUL: `X:A` is the unsigned product; the flags H and C are cleared (R187). -/
def execMul (s : State) : Out :=
  inherent (fun s =>
    ((s.setX (BitVec.ofNat 8 (s.x.toNat * s.a.toNat / 256))).setA (BitVec.ofNat 8 (s.x.toNat * s.a.toNat % 256))).setCcr
      { s.ccr with h := false, c := false }) s

/-- The quotient of DIV (R184). -/
def divQuotient (h a x : Byte) : Byte :=
  BitVec.ofNat 8 ((h.toNat * 256 + a.toNat) / x.toNat)

/-- The remainder of DIV (R184). -/
def divRemainder (h a x : Byte) : Byte :=
  BitVec.ofNat 8 ((h.toNat * 256 + a.toNat) % x.toNat)

/-- Whether DIV has a quotient of 8 bits (R184). -/
def divFits (h x : Byte) : Bool :=
  x != 0 && decide (h.toNat < x.toNat)

/-- DIV: `A` and `H` become quotient and remainder of `H:A` by `X`; on overflow and on a zero divisor C is set and A, H and
Z are free values (R184; U2, D17, log 8). -/
def execDiv (s : State) : Out :=
  inherent (fun s =>
    if divFits s.h s.x then
      ((s.setA (divQuotient s.h s.a s.x)).setH (divRemainder s.h s.a s.x)).setCcr
        { s.ccr with z := divQuotient s.h s.a s.x == 0, c := false }
    else
      (((s.setA (Config.freeByte s.draws)).setH (Config.freeByte (s.draws + 1))).setCcr
        { s.ccr with z := Config.freeBit (s.draws + 2), c := true }).drew 3) s

/-- The flags of DAA: N and Z from the adjusted A; H and I are unchanged (R182). -/
def daaFlags (f : Flags) (a : Byte) (v c : Bool) : Flags :=
  { f with v := v, n := a.msb, z := a == 0, c := c }

/-- DAA: correction and C from the table, V a free value; outside the table A and C are free values too, and N and Z come
from that A (R182; U1, U3, D16, log 8). -/
def execDaa (s : State) : Out :=
  inherent (fun s =>
    match daaRow s.ccr.c s.ccr.h s.a with
    | some row =>
      ((s.setA (s.a + row.correction)).setCcr
        (daaFlags s.ccr (s.a + row.correction) (Config.freeBit s.draws) row.newC)).drew 1
    | none =>
      ((s.setA (Config.freeByte s.draws)).setCcr
        (daaFlags s.ccr (Config.freeByte s.draws) (Config.freeBit (s.draws + 2)) (Config.freeBit (s.draws + 1)))).drew 3) s

/-- NSA (R188). -/
def execNsa (s : State) : Out :=
  inherent (fun s => s.setA (s.a.extractLsb' 0 4 ++ s.a.extractLsb' 4 4)) s

end Sys2Proof.Machine
end

