-- ==== Sys2Proof/Machine/Accesses.lean ====
section
/-! DEFINITION. The data accesses of every instruction and of an exception entry, in their order (20_memory.md R56; D15, D22, log 25),
and how a prefix of them happens when a reset cuts the instruction off (70_reset_and_hazards.md R290, log 19). That they are the
accesses `exec` makes is stated in Obligations.HiddenStateFrame. -/

namespace Sys2Proof.Machine

/-- One data access: a byte read, or a byte written with its value. -/
inductive Access where
  | read (addr : Word)
  | write (addr : Word) (v : Byte)
  deriving DecidableEq, Repr

/-- The address of an access. -/
def Access.addr : Access → Word
  | .read addr => addr
  | .write addr _ => addr

/-- The address an access stores to, if it is a write. -/
def Access.target : Access → Option Word
  | .read _ => none
  | .write addr _ => some addr

/-- Make the accesses in their order, then go on. -/
def State.replay (s : State) : List Access → (State → Out) → Out
  | [], k => k s
  | .read addr :: rest, k => s.readByte addr fun _ s1 => s1.replay rest k
  | .write addr v :: rest, k => s.writeByte addr v fun s1 => s1.replay rest k

/-- One read, then one write of the new byte to the same address (R56). -/
def State.updateAccesses (s : State) (addr : Word) (f : Byte → Byte) : List Access :=
  [.read addr, .write addr (f (s.byteAt addr))]

/-- The operand read of a register/memory instruction (R84, R230). -/
def State.srcAccesses (s : State) : Src → List Access
  | .imm _ => []
  | .mem ea => [.read (s.ea ea)]

/-- The operand read of LDHX and CPHX (R52, R108). -/
def src16Accesses : Src16 → List Access
  | .imm _ => []
  | .dir dd => [.read (directAddr dd), .read (directAddr dd + 1)]

/-- MOV: the source read, then the destination write (R186). -/
def State.movAccesses (s : State) (form : MovForm) : List Access :=
  match form with
  | .dd src _ => [.read (directAddr src), .write (s.movDest form) (s.byteAt (directAddr src))]
  | .dixp src => [.read (directAddr src), .write (s.movDest form) (s.byteAt (directAddr src))]
  | .imd ii _ => [.write (s.movDest form) ii]
  | .ixpd _ => [.read s.hx, .write (s.movDest form) (s.byteAt s.hx)]

/-- `n` pulls (R9). -/
def State.pullAccesses (s : State) (n : Nat) : List Access :=
  (List.range n).map fun k => .read (s.sp + BitVec.ofNat 16 (k + 1))

/-- The pushes of a return address (R59). -/
def State.callAccesses (s : State) (ret : Word) : List Access :=
  [.write s.sp (loByte ret), .write (s.sp - 1) (hiByte ret)]

/-- The five pushes of an exception entry and the read of the vector (R266 to R268). -/
def State.entryAccesses (s : State) (ret vector : Word) : List Access :=
  s.callAccesses ret ++
    [.write (s.sp - 2) s.x, .write (s.sp - 3) s.a, .write (s.sp - 4) (s.ccr.toByte s.cfg.ccrBits65),
      .read vector, .read (vector + 1)]

/-- The data accesses of an instruction, in their order, in the state it starts in (R56). -/
def State.accesses (s : State) : Instr → List Access
  | .brset _ dd _ => [.read (directAddr dd)]
  | .brclr _ dd _ => [.read (directAddr dd)]
  | .bset n dd => s.updateAccesses (directAddr dd) fun m => m ||| bitMask n
  | .bclr n dd => s.updateAccesses (directAddr dd) fun m => m &&& ~~~ bitMask n
  | .bra _ => []
  | .brn _ => []
  | .bhi _ => []
  | .bls _ => []
  | .bcc _ => []
  | .bcs _ => []
  | .bne _ => []
  | .beq _ => []
  | .bhcc _ => []
  | .bhcs _ => []
  | .bpl _ => []
  | .bmi _ => []
  | .bmc _ => []
  | .bms _ => []
  | .bil _ => []
  | .bih _ => []
  | .neg ea => s.updateAccesses (s.ea ea) fun m => (negOp m s.ccr).1
  | .cbeq form _ => [.read (s.cbeqEa form)]
  | .com ea => s.updateAccesses (s.ea ea) fun m => (comOp m s.ccr).1
  | .lsr ea => s.updateAccesses (s.ea ea) fun m => (lsrOp m s.ccr).1
  | .sthx dd => [.write (directAddr dd) s.h, .write (directAddr dd + 1) s.x]
  | .ror ea => s.updateAccesses (s.ea ea) fun m => (rorOp m s.ccr).1
  | .asr ea => s.updateAccesses (s.ea ea) fun m => (asrOp m s.ccr).1
  | .lsl ea => s.updateAccesses (s.ea ea) fun m => (lslOp m s.ccr).1
  | .rol ea => s.updateAccesses (s.ea ea) fun m => (rolOp m s.ccr).1
  | .dec ea => s.updateAccesses (s.ea ea) fun m => (decOp m s.ccr).1
  | .dbnz ea _ => s.updateAccesses (s.ea ea) countDown
  | .inc ea => s.updateAccesses (s.ea ea) fun m => (incOp m s.ccr).1
  | .tst ea => [.read (s.ea ea)]
  | .clr ea => [.write (s.ea ea) 0]
  | .nega => []
  | .cbeqa _ _ => []
  | .mul => []
  | .coma => []
  | .lsra => []
  | .ldhx src => src16Accesses src
  | .rora => []
  | .asra => []
  | .lsla => []
  | .rola => []
  | .deca => []
  | .dbnza _ => []
  | .inca => []
  | .tsta => []
  | .mov form => s.movAccesses form
  | .clra => []
  | .negx => []
  | .cbeqx _ _ => []
  | .div => []
  | .comx => []
  | .lsrx => []
  | .rorx => []
  | .asrx => []
  | .lslx => []
  | .rolx => []
  | .decx => []
  | .dbnzx _ => []
  | .incx => []
  | .tstx => []
  | .clrx => []
  | .nsa => []
  | .cphx src => src16Accesses src
  | .daa => []
  | .rti => s.pullAccesses 5
  | .rts => s.pullAccesses 2
  | .swi => s.entryAccesses (s.nextPc 1) swiVector
  | .tap => []
  | .tpa => []
  | .pula => s.pullAccesses 1
  | .psha => [.write s.sp s.a]
  | .pulx => s.pullAccesses 1
  | .pshx => [.write s.sp s.x]
  | .pulh => s.pullAccesses 1
  | .pshh => [.write s.sp s.h]
  | .clrh => []
  | .stop => []
  | .wait => []
  | .bge _ => []
  | .blt _ => []
  | .bgt _ => []
  | .ble _ => []
  | .txs => []
  | .tsx => []
  | .tax => []
  | .clc => []
  | .sec => []
  | .cli => []
  | .sei => []
  | .rsp => []
  | .nop => []
  | .txa => []
  | .sub src => s.srcAccesses src
  | .cmp src => s.srcAccesses src
  | .sbc src => s.srcAccesses src
  | .cpx src => s.srcAccesses src
  | .and src => s.srcAccesses src
  | .bit src => s.srcAccesses src
  | .lda src => s.srcAccesses src
  | .ais _ => []
  | .eor src => s.srcAccesses src
  | .adc src => s.srcAccesses src
  | .ora src => s.srcAccesses src
  | .add src => s.srcAccesses src
  | .bsr _ => s.callAccesses (s.nextPc 2)
  | .ldx src => s.srcAccesses src
  | .aix _ => []
  | .sta ea => [.write (s.ea ea) s.a]
  | .jmp _ => []
  | .jsr ea => s.callAccesses (s.nextPc ea.length)
  | .stx ea => [.write (s.ea ea) s.x]
  | .asl ea => s.updateAccesses (s.ea ea) fun m => (lslOp m s.ccr).1
  | .asla => []
  | .aslx => []
  | .bhs _ => []
  | .blo _ => []

end Sys2Proof.Machine
end

