-- ==== Sys2Proof/Machine/Branch.lean ====
section
/-! DEFINITION. The branch instructions (41_branch.md R130 to R153). -/

namespace Sys2Proof.Machine

/-- BRA (R151). -/
def execBra (rr : Byte) (s : State) : Out :=
  condBranch rr true s

/-- BRN (R152). -/
def execBrn (rr : Byte) (s : State) : Out :=
  condBranch rr false s

/-- BHI (R138; the `or` is PRESUMED, log 33). -/
def execBhi (rr : Byte) (s : State) : Out :=
  condBranch rr (!(s.ccr.c || s.ccr.z)) s

/-- BLS (R144; the `or` is PRESUMED, log 33). -/
def execBls (rr : Byte) (s : State) : Out :=
  condBranch rr (s.ccr.c || s.ccr.z) s

/-- BCC (R131). -/
def execBcc (rr : Byte) (s : State) : Out :=
  condBranch rr (!s.ccr.c) s

/-- BCS (R132). -/
def execBcs (rr : Byte) (s : State) : Out :=
  condBranch rr s.ccr.c s

/-- BNE (R149). -/
def execBne (rr : Byte) (s : State) : Out :=
  condBranch rr (!s.ccr.z) s

/-- BEQ (R133). -/
def execBeq (rr : Byte) (s : State) : Out :=
  condBranch rr s.ccr.z s

/-- BHCC (R136). -/
def execBhcc (rr : Byte) (s : State) : Out :=
  condBranch rr (!s.ccr.h) s

/-- BHCS (R137). -/
def execBhcs (rr : Byte) (s : State) : Out :=
  condBranch rr s.ccr.h s

/-- BPL (R150). -/
def execBpl (rr : Byte) (s : State) : Out :=
  condBranch rr (!s.ccr.n) s

/-- BMI (R147). -/
def execBmi (rr : Byte) (s : State) : Out :=
  condBranch rr s.ccr.n s

/-- BMC (R146). -/
def execBmc (rr : Byte) (s : State) : Out :=
  condBranch rr (!s.ccr.i) s

/-- BMS (R148). -/
def execBms (rr : Byte) (s : State) : Out :=
  condBranch rr s.ccr.i s

/-- BIL (R141: the present level of the /IRQ pin is 0). -/
def execBil (rr : Byte) (s : State) : Out :=
  condBranch rr (!s.env.irqPin) s

/-- BIH (R140: the present level of the /IRQ pin is 1). -/
def execBih (rr : Byte) (s : State) : Out :=
  condBranch rr s.env.irqPin s

/-- BGE (R134; the `xor` is PRESUMED, log 33). -/
def execBge (rr : Byte) (s : State) : Out :=
  condBranch rr (!(s.ccr.n ^^ s.ccr.v)) s

/-- BLT (R145; the `xor` is PRESUMED, log 33). -/
def execBlt (rr : Byte) (s : State) : Out :=
  condBranch rr (s.ccr.n ^^ s.ccr.v) s

/-- BGT (R135; the operators are PRESUMED, log 33). -/
def execBgt (rr : Byte) (s : State) : Out :=
  condBranch rr (!(s.ccr.z || (s.ccr.n ^^ s.ccr.v))) s

/-- BLE (R142; the operators are PRESUMED, log 33). -/
def execBle (rr : Byte) (s : State) : Out :=
  condBranch rr (s.ccr.z || (s.ccr.n ^^ s.ccr.v)) s

/-- BHS (R139, a second name of BCC). -/
def execBhs (rr : Byte) (s : State) : Out :=
  condBranch rr (!s.ccr.c) s

/-- BLO (R143, a second name of BCS). -/
def execBlo (rr : Byte) (s : State) : Out :=
  condBranch rr s.ccr.c s

/-- BSR: push the address of the next instruction, then branch (R153). -/
def execBsr (rr : Byte) (s : State) : Out :=
  s.pushWord (s.nextPc 2) fun s1 => .next (s1.setPc (s.branchTarget 2 rr))

end Sys2Proof.Machine
end

