-- ==== Sys2Proof/Machine/Control.lean ====
section
/-! DEFINITION. The control instructions (44_control.md R200 to R222). -/

namespace Sys2Proof.Machine

/-- CLC (R200). -/
def execClc (s : State) : Out :=
  inherent (fun s => s.setCcr { s.ccr with c := false }) s

/-- SEC (R212). -/
def execSec (s : State) : Out :=
  inherent (fun s => s.setCcr { s.ccr with c := true }) s

/-- CLI (R201); an interrupt pending then may be taken one instruction later (R265, log 17). -/
def execCli (s : State) : Out :=
  inherent (fun s => (s.setCcr { s.ccr with i := false }).setMask .justCleared) s

/-- SEI (R213); if I was 0, an interrupt pending then may still be taken once (R296, log 17). -/
def execSei (s : State) : Out :=
  inherent (fun s => (s.setCcr { s.ccr with i := true }).setMask (if s.ccr.i then .none else .justSet)) s

/-- NOP (R202). -/
def execNop (s : State) : Out :=
  inherent (fun s => s) s

/-- PSHA (R203). -/
def execPsha (s : State) : Out :=
  s.push s.a fun s1 => .next (s1.advance 1)

/-- PSHH (R204). -/
def execPshh (s : State) : Out :=
  s.push s.h fun s1 => .next (s1.advance 1)

/-- PSHX (R205). -/
def execPshx (s : State) : Out :=
  s.push s.x fun s1 => .next (s1.advance 1)

/-- PULA: no flag changes (R206). -/
def execPula (s : State) : Out :=
  s.pull fun v s1 => .next ((s1.setA v).advance 1)

/-- PULH (R207). -/
def execPulh (s : State) : Out :=
  s.pull fun v s1 => .next ((s1.setH v).advance 1)

/-- PULX (R208). -/
def execPulx (s : State) : Out :=
  s.pull fun v s1 => .next ((s1.setX v).advance 1)

/-- The value RSP gives SP (R209; `rsp_keeps_high`, log 3). -/
def rspValue (keepsHigh : Bool) (sp : Word) : Word :=
  wordOf (if keepsHigh then hiByte sp else 0x00) 0xFF

/-- RSP (R209). -/
def execRsp (s : State) : Out :=
  inherent (fun s => s.setSp (rspValue s.cfg.rspKeepsHigh s.sp)) s

/-- RTI (R210, R270). -/
def execRti (s : State) : Out :=
  s.returnFromException

/-- RTS: the address is used as it is (R211). -/
def execRts (s : State) : Out :=
  s.pullWord fun target s1 => .next (s1.setPc target)

/-- STOP: I is cleared, the /IRQ pin interrupt is enabled, the run state becomes stopped (R214, R275). -/
def execStop (s : State) : Out :=
  inherent (fun s => ((s.setCcr { s.ccr with i := false }).setIrqEnable true).setRun .stopped) s

/-- WAIT: I is cleared and the run state becomes waiting (R222, R276). -/
def execWait (s : State) : Out :=
  inherent (fun s => (s.setCcr { s.ccr with i := false }).setRun .waiting) s

/-- SWI: the exception entry with the address of the next instruction, whatever I is (R215, R262). -/
def execSwi (s : State) : Out :=
  s.takeException (s.nextPc 1) swiVector

/-- TAP: all six flags from A (R216); a change of I counts as SEI or CLI does (R297, log 17). -/
def execTap (s : State) : Out :=
  inherent (fun s =>
    (s.setCcr (Flags.ofCcrByte s.a)).setMask (maskAfterTap s.ccr.i (Flags.ofCcrByte s.a).i)) s

/-- TPA (R218). -/
def execTpa (s : State) : Out :=
  inherent (fun s => s.setA (s.ccr.toByte s.cfg.ccrBits65)) s

/-- TAX: H is unchanged (R217). -/
def execTax (s : State) : Out :=
  inherent (fun s => s.setX s.a) s

/-- TXA: no flag changes (R220; D13, log 23). -/
def execTxa (s : State) : Out :=
  inherent (fun s => s.setA s.x) s

/-- TSX: no flag changes (R219; D13, log 23). -/
def execTsx (s : State) : Out :=
  inherent (fun s => s.setHx (s.sp + 1)) s

/-- TXS: no flag changes (R221; D13, log 23). -/
def execTxs (s : State) : Out :=
  inherent (fun s => s.setSp (s.hx - 1)) s

end Sys2Proof.Machine
end

