-- ==== Sys2Proof/Machine/RegMem.lean ====
section
/-! DEFINITION. The register/memory instructions (45_register_memory.md R230 to R248). -/

namespace Sys2Proof.Machine

/-- SUB (R248; H is unchanged, D12, log 23). -/
def execSub (src : Src) (s : State) : Out :=
  withSrc src s fun m s1 => (s1.setA (sub8 s1.a m false).r).setCcr (s1.ccr.ofByte (sub8 s1.a m false))

/-- CMP (R237; the difference is discarded). -/
def execCmp (src : Src) (s : State) : Out :=
  withSrc src s fun m s1 => s1.setCcr (s1.ccr.ofByte (sub8 s1.a m false))

/-- SBC (R245; H is unchanged, D12, log 23). -/
def execSbc (src : Src) (s : State) : Out :=
  withSrc src s fun m s1 => (s1.setA (sub8 s1.a m s1.ccr.c).r).setCcr (s1.ccr.ofByte (sub8 s1.a m s1.ccr.c))

/-- CPX (R238; the difference is discarded). -/
def execCpx (src : Src) (s : State) : Out :=
  withSrc src s fun m s1 => s1.setCcr (s1.ccr.ofByte (sub8 s1.x m false))

/-- ADC (R231). -/
def execAdc (src : Src) (s : State) : Out :=
  withSrc src s fun m s1 => (s1.setA (add8 s1.a m s1.ccr.c).r).setCcr (s1.ccr.ofAdd (add8 s1.a m s1.ccr.c))

/-- ADD (R232). -/
def execAdd (src : Src) (s : State) : Out :=
  withSrc src s fun m s1 => (s1.setA (add8 s1.a m false).r).setCcr (s1.ccr.ofAdd (add8 s1.a m false))

/-- AND (R235). -/
def execAnd (src : Src) (s : State) : Out :=
  withSrc src s fun m s1 => (s1.setA (s1.a &&& m)).setCcr (s1.ccr.logic8 (s1.a &&& m))

/-- BIT (R236; A is not written). -/
def execBit (src : Src) (s : State) : Out :=
  withSrc src s fun m s1 => s1.setCcr (s1.ccr.logic8 (s1.a &&& m))

/-- LDA (R242). -/
def execLda (src : Src) (s : State) : Out :=
  withSrc src s fun m s1 => (s1.setA m).setCcr (s1.ccr.logic8 m)

/-- EOR (R239). -/
def execEor (src : Src) (s : State) : Out :=
  withSrc src s fun m s1 => (s1.setA (s1.a ^^^ m)).setCcr (s1.ccr.logic8 (s1.a ^^^ m))

/-- ORA (R244). -/
def execOra (src : Src) (s : State) : Out :=
  withSrc src s fun m s1 => (s1.setA (s1.a ||| m)).setCcr (s1.ccr.logic8 (s1.a ||| m))

/-- LDX (R243; H is unchanged). -/
def execLdx (src : Src) (s : State) : Out :=
  withSrc src s fun m s1 => (s1.setX m).setCcr (s1.ccr.logic8 m)

/-- AIS: no flag changes (R233). -/
def execAis (ii : Byte) (s : State) : Out :=
  .next ((s.setSp (s.sp + sext16 ii)).advance 2)

/-- AIX: all 16 bits, no flag changes (R234). -/
def execAix (ii : Byte) (s : State) : Out :=
  .next ((s.setHx (s.hx + sext16 ii)).advance 2)

/-- STA (R246). -/
def execSta (ea : Ea) (s : State) : Out :=
  storeByte ea s.a s

/-- STX (R247). -/
def execStx (ea : Ea) (s : State) : Out :=
  storeByte ea s.x s

/-- JMP: the address itself is the target (R240). -/
def execJmp (ea : Ea) (s : State) : Out :=
  .next (s.setPc (s.ea ea))

/-- JSR: the address is computed before the pushes (R241). -/
def execJsr (ea : Ea) (s : State) : Out :=
  s.pushWord (s.nextPc ea.length) fun s1 => .next (s1.setPc (s.ea ea))

end Sys2Proof.Machine
end

