-- ==== Sys2Proof/Machine/Dispatch.lean ====
section
/-! DEFINITION. The meaning of every instruction, one arm per constructor. -/

namespace Sys2Proof.Machine

/-- What an instruction does to a state whose PC is its own address. -/
def exec (i : Instr) (s : State) : Host.Outcome State Fault Refusal :=
  match i with
  | .brset n dd rr => Sys2Proof.Machine.execBrset n dd rr s
  | .brclr n dd rr => Sys2Proof.Machine.execBrclr n dd rr s
  | .bset n dd => Sys2Proof.Machine.execBset n dd s
  | .bclr n dd => Sys2Proof.Machine.execBclr n dd s
  | .bra rr => Sys2Proof.Machine.execBra rr s
  | .brn rr => Sys2Proof.Machine.execBrn rr s
  | .bhi rr => Sys2Proof.Machine.execBhi rr s
  | .bls rr => Sys2Proof.Machine.execBls rr s
  | .bcc rr => Sys2Proof.Machine.execBcc rr s
  | .bcs rr => Sys2Proof.Machine.execBcs rr s
  | .bne rr => Sys2Proof.Machine.execBne rr s
  | .beq rr => Sys2Proof.Machine.execBeq rr s
  | .bhcc rr => Sys2Proof.Machine.execBhcc rr s
  | .bhcs rr => Sys2Proof.Machine.execBhcs rr s
  | .bpl rr => Sys2Proof.Machine.execBpl rr s
  | .bmi rr => Sys2Proof.Machine.execBmi rr s
  | .bmc rr => Sys2Proof.Machine.execBmc rr s
  | .bms rr => Sys2Proof.Machine.execBms rr s
  | .bil rr => Sys2Proof.Machine.execBil rr s
  | .bih rr => Sys2Proof.Machine.execBih rr s
  | .neg ea => Sys2Proof.Machine.execNeg ea s
  | .cbeq form rr => Sys2Proof.Machine.execCbeq form rr s
  | .com ea => Sys2Proof.Machine.execCom ea s
  | .lsr ea => Sys2Proof.Machine.execLsr ea s
  | .sthx dd => Sys2Proof.Machine.execSthx dd s
  | .ror ea => Sys2Proof.Machine.execRor ea s
  | .asr ea => Sys2Proof.Machine.execAsr ea s
  | .lsl ea => Sys2Proof.Machine.execLsl ea s
  | .rol ea => Sys2Proof.Machine.execRol ea s
  | .dec ea => Sys2Proof.Machine.execDec ea s
  | .dbnz ea rr => Sys2Proof.Machine.execDbnz ea rr s
  | .inc ea => Sys2Proof.Machine.execInc ea s
  | .tst ea => Sys2Proof.Machine.execTst ea s
  | .clr ea => Sys2Proof.Machine.execClr ea s
  | .nega => Sys2Proof.Machine.execNega s
  | .cbeqa ii rr => Sys2Proof.Machine.execCbeqa ii rr s
  | .mul => Sys2Proof.Machine.execMul s
  | .coma => Sys2Proof.Machine.execComa s
  | .lsra => Sys2Proof.Machine.execLsra s
  | .ldhx src => Sys2Proof.Machine.execLdhx src s
  | .rora => Sys2Proof.Machine.execRora s
  | .asra => Sys2Proof.Machine.execAsra s
  | .lsla => Sys2Proof.Machine.execLsla s
  | .rola => Sys2Proof.Machine.execRola s
  | .deca => Sys2Proof.Machine.execDeca s
  | .dbnza rr => Sys2Proof.Machine.execDbnza rr s
  | .inca => Sys2Proof.Machine.execInca s
  | .tsta => Sys2Proof.Machine.execTsta s
  | .mov form => Sys2Proof.Machine.execMov form s
  | .clra => Sys2Proof.Machine.execClra s
  | .negx => Sys2Proof.Machine.execNegx s
  | .cbeqx ii rr => Sys2Proof.Machine.execCbeqx ii rr s
  | .div => Sys2Proof.Machine.execDiv s
  | .comx => Sys2Proof.Machine.execComx s
  | .lsrx => Sys2Proof.Machine.execLsrx s
  | .rorx => Sys2Proof.Machine.execRorx s
  | .asrx => Sys2Proof.Machine.execAsrx s
  | .lslx => Sys2Proof.Machine.execLslx s
  | .rolx => Sys2Proof.Machine.execRolx s
  | .decx => Sys2Proof.Machine.execDecx s
  | .dbnzx rr => Sys2Proof.Machine.execDbnzx rr s
  | .incx => Sys2Proof.Machine.execIncx s
  | .tstx => Sys2Proof.Machine.execTstx s
  | .clrx => Sys2Proof.Machine.execClrx s
  | .nsa => Sys2Proof.Machine.execNsa s
  | .cphx src => Sys2Proof.Machine.execCphx src s
  | .daa => Sys2Proof.Machine.execDaa s
  | .rti => Sys2Proof.Machine.execRti s
  | .rts => Sys2Proof.Machine.execRts s
  | .swi => Sys2Proof.Machine.execSwi s
  | .tap => Sys2Proof.Machine.execTap s
  | .tpa => Sys2Proof.Machine.execTpa s
  | .pula => Sys2Proof.Machine.execPula s
  | .psha => Sys2Proof.Machine.execPsha s
  | .pulx => Sys2Proof.Machine.execPulx s
  | .pshx => Sys2Proof.Machine.execPshx s
  | .pulh => Sys2Proof.Machine.execPulh s
  | .pshh => Sys2Proof.Machine.execPshh s
  | .clrh => Sys2Proof.Machine.execClrh s
  | .stop => Sys2Proof.Machine.execStop s
  | .wait => Sys2Proof.Machine.execWait s
  | .bge rr => Sys2Proof.Machine.execBge rr s
  | .blt rr => Sys2Proof.Machine.execBlt rr s
  | .bgt rr => Sys2Proof.Machine.execBgt rr s
  | .ble rr => Sys2Proof.Machine.execBle rr s
  | .txs => Sys2Proof.Machine.execTxs s
  | .tsx => Sys2Proof.Machine.execTsx s
  | .tax => Sys2Proof.Machine.execTax s
  | .clc => Sys2Proof.Machine.execClc s
  | .sec => Sys2Proof.Machine.execSec s
  | .cli => Sys2Proof.Machine.execCli s
  | .sei => Sys2Proof.Machine.execSei s
  | .rsp => Sys2Proof.Machine.execRsp s
  | .nop => Sys2Proof.Machine.execNop s
  | .txa => Sys2Proof.Machine.execTxa s
  | .sub src => Sys2Proof.Machine.execSub src s
  | .cmp src => Sys2Proof.Machine.execCmp src s
  | .sbc src => Sys2Proof.Machine.execSbc src s
  | .cpx src => Sys2Proof.Machine.execCpx src s
  | .and src => Sys2Proof.Machine.execAnd src s
  | .bit src => Sys2Proof.Machine.execBit src s
  | .lda src => Sys2Proof.Machine.execLda src s
  | .ais ii => Sys2Proof.Machine.execAis ii s
  | .eor src => Sys2Proof.Machine.execEor src s
  | .adc src => Sys2Proof.Machine.execAdc src s
  | .ora src => Sys2Proof.Machine.execOra src s
  | .add src => Sys2Proof.Machine.execAdd src s
  | .bsr rr => Sys2Proof.Machine.execBsr rr s
  | .ldx src => Sys2Proof.Machine.execLdx src s
  | .aix ii => Sys2Proof.Machine.execAix ii s
  | .sta ea => Sys2Proof.Machine.execSta ea s
  | .jmp ea => Sys2Proof.Machine.execJmp ea s
  | .jsr ea => Sys2Proof.Machine.execJsr ea s
  | .stx ea => Sys2Proof.Machine.execStx ea s
  | .asl ea => Sys2Proof.Machine.execAsl ea s
  | .asla => Sys2Proof.Machine.execAsla s
  | .aslx => Sys2Proof.Machine.execAslx s
  | .bhs rr => Sys2Proof.Machine.execBhs rr s
  | .blo rr => Sys2Proof.Machine.execBlo rr s

end Sys2Proof.Machine
end

