-- ==== Sys2Proof/Machine/Events.lean ====
section
/-! DEFINITION. What happens at an instruction boundary: reset, interrupts, the low-power states, and the execution of the
instruction at PC (60_exceptions.md R263 to R277, 70_reset_and_hazards.md R290 to R303). -/

namespace Sys2Proof.Machine

/-! ### Interrupt sources -/

/-- Whether the /IRQ pin requests an interrupt: it is at 0 and its interrupt is enabled (R263). -/
def State.irqPending (s : State) : Bool :=
  !s.env.irqPin && s.irqEnable

/-- The /IRQ pin as a source; its name is not used (R263). -/
def irqSource (cfg : Platform) : IntSource where
  name := 0
  vector := cfg.irqVector
  rank := cfg.irqRank

/-- The sources whose request is pending (R263). -/
def State.pendingSources (s : State) : List IntSource :=
  (if s.irqPending then [irqSource s.cfg] else []) ++ s.cfg.sources.filter fun src => s.env.requests.contains src.name

/-- The source with the best rank; the first of those with that rank (R272; log 14). -/
def bestSource : List IntSource → Option IntSource
  | [] => none
  | src :: rest =>
    match bestSource rest with
    | none => some src
    | some best => if src.rank ≤ best.rank then some src else some best

/-- Whether the mask lets an interrupt through at this boundary: I is 0, or the environment uses the window after an
instruction that set I, and does not put off an interrupt after one that cleared I (R264, R265, R296, R297; D27, log 17). -/
def State.unmasked (s : State) : Bool :=
  match s.mask with
  | .none => !s.ccr.i
  | .justSet => !s.ccr.i || s.env.choice
  | .justCleared => !s.ccr.i && s.env.choice

/-- The interrupt taken at this boundary in the running state (R265). -/
def State.recognised (s : State) : Option IntSource :=
  if s.unmasked then bestSource s.pendingSources else none

/-! ### Execution -/

/-- An unassigned encoding: the fault, or the reset that the parameter selects (R101, R261; D2, log 12). -/
def State.illegalOpcode (s : State) (bytes : List Byte) : Out :=
  match s.cfg.illegalAction with
  | .fault => .fault (.illegalOpcode s.pc bytes)
  | .reset => s.takeReset

/-- The answer when the bytes at PC spell no instruction. If they end too early, the first byte missing lies at an address
from which nothing can be fetched (R60). -/
def State.decodeError (s : State) : DecodeError → Out
  | .truncated => .fault (.fetchFromNonMemory (s.nextPc s.fetchBytes.length))
  | .unassigned b0 => s.illegalOpcode [b0]
  | .unassignedPage2 b1 => s.illegalOpcode [prebyte, b1]

/-- What begins at this boundary, with these data accesses: the whole of it, or, if /RESET goes low inside it, the accesses made by
then and the reset sequence (R290: the instruction in progress is abandoned; log 19). -/
def State.orCutShort (s : State) (accs : List Access) (whole : Out) : Out :=
  match s.env.cut with
  | none => whole
  | some n => s.replay (accs.take n) State.takeReset

/-- Fetch, decode and execute the instruction at PC (R81, R105). Bytes that spell no instruction make no data access. -/
def State.runInstr (s : State) : Out :=
  match decode s.fetchBytes with
  | .ok i => s.orCutShort (s.accesses i) (exec i s)
  | .error e => s.orCutShort [] (s.decodeError e)

/-- The entry of a hardware interrupt with the current PC as return address (R266; D6, log 16). -/
def State.enterInterrupt (s : State) (vector : Word) : Out :=
  s.orCutShort (s.entryAccesses s.pc vector) (s.takeException s.pc vector)

/-! ### The run states -/

/-- A boundary in the running state: reset, else a recognised interrupt, else the instruction at PC (R265, R272). The mask
history of the boundary is spent. While /RESET is held low each boundary performs the whole reset sequence again and no instruction
runs (DESIGN CHOICE, log 35). -/
def State.runningStep (s : State) : Out :=
  if s.env.reset then s.takeReset
  else
    match s.recognised with
    | some src => (s.setMask .none).enterInterrupt src.vector
    | none => (s.setMask .none).runInstr

/-- The waiting state: reset or any pending source ends it; else nothing happens (R276, R277). A /RESET that stays low is taken again
at the next boundary (DESIGN CHOICE, log 35). -/
def State.waitingStep (s : State) : Out :=
  if s.env.reset then s.takeReset
  else
    match bestSource s.pendingSources with
    | some src => s.enterInterrupt src.vector
    | none => .next s

/-- The stopped state: /RESET or /IRQ at 0 starts the recovery delay; else nothing happens (R275, R303). -/
def State.stoppedStep (s : State) : Out :=
  if s.env.reset then .next (s.setRun (.recovering stopRecoveryCycles true))
  else if s.env.irqPin then .next s
  else .next (s.setRun (.recovering stopRecoveryCycles false))

/-- The recovery delay: one cycle per step, then the reset sequence or the /IRQ entry (R275, R303). A /RESET during a delay
that /IRQ started starts it again as a reset (DESIGN CHOICE, log 18). -/
def State.recoveringStep (s : State) (cyclesLeft : Nat) (byReset : Bool) : Out :=
  if s.env.reset && !byReset then .next (s.setRun (.recovering stopRecoveryCycles true))
  else
    match cyclesLeft with
    | n + 1 => .next (s.setRun (.recovering n byReset))
    | 0 => if byReset then s.takeReset else s.enterInterrupt s.cfg.irqVector

/-- What happens at an instruction boundary (R265, R275, R276). -/
def State.boundary (s : State) : Out :=
  match s.run with
  | .running => s.runningStep
  | .waiting => s.waitingStep
  | .stopped => s.stoppedStep
  | .recovering cyclesLeft byReset => s.recoveringStep cyclesLeft byReset

/-- The environment goes on to what it presents next; when nothing is left it keeps its inputs (log 13). -/
def State.tick (s : State) : State :=
  match s.future with
  | [] => s
  | e :: rest => { s with env := e, future := rest }

/-- Store bytes at consecutive addresses, counting modulo 65536, whatever the regions are: how an image gets into memory
(log 7). -/
def State.load (s : State) (addr : Word) : List Byte → State
  | [] => s
  | b :: rest => (s.setMem (s.mem.write addr.toNat b)).load (addr + 1) rest

/-- Parameters under which the `n` bytes from PC on can be fetched: a map under which one of them is not gets a `ram` region over them. -/
def State.openFetch (s : State) (n : Nat) : Platform :=
  if (s.fetchFrom n s.pc).length = n then s.cfg else { s.cfg with memMap := ⟨s.pc, n, .ram⟩ :: s.cfg.memMap }

end Sys2Proof.Machine
end

