-- ==== Sys2Proof/Machine/Step.lean ====
section
/-! DEFINITION. One step of the machine, and how an instruction is placed where the step fetches. -/

namespace Sys2Proof.Machine

/-- One step: what happens at the boundary, then the environment moves on (R19, R265). -/
def step (s : State) : Host.Outcome State Fault Refusal :=
  mapNext State.tick s.boundary

/-- The state with the instruction whose `nbits` bits are `w` stored at PC, in a running machine whose environment asks for
nothing, so that the next step executes it (log 7, log 30). -/
def State.withFetchWord (s : State) (nbits w : Nat) : State :=
  { s.load s.pc (tableBytes nbits w) with
    run := .running
    env := Inputs.quiet
    cfg := s.openFetch 4 }

end Sys2Proof.Machine
end

