-- ==== Sys2Proof/Machine/Run.lean ====
section
/-! DEFINITION. The end of a run (parameter `run_end`, 00_scope.md R4; D31, U17, log 34). It changes no step. -/

namespace Sys2Proof.Machine

/-- Neither pin is low now or at any later boundary the environment has in store, so nothing ends the stopped state (R275). -/
def State.pinsStayHigh (s : State) : Bool :=
  (s.env :: s.future).all fun e => !e.reset && e.irqPin

/-- Whether an end condition holds in a state that was reached after so many steps (D31, log 34). -/
def State.endsBy (s : State) (taken : Nat) : EndCondition → Bool
  | .selfBranch => s.run == .running && s.fetchBytes.take 2 == [0x20, 0xFE]
  | .atPc pc => s.run == .running && s.pc == pc
  | .neverWakes => s.run == .stopped && s.pinsStayHigh
  | .steps budget => decide (budget ≤ taken)

/-- Whether a run is over: one of the conditions of the parameter holds. -/
def State.ended (s : State) (taken : Nat) : Bool :=
  s.cfg.runEnd.any (s.endsBy taken)

/-- The rest of a run after `taken` steps, up to its end or to a stop, looking at most `fuel` steps ahead; none if it is not over by
then. -/
def State.runToEnd (s : State) (taken : Nat) : Nat → Option Out
  | 0 => if s.ended taken then some (.next s) else none
  | fuel + 1 =>
    if s.ended taken then some (.next s)
    else
      match step s with
      | .next t => t.runToEnd (taken + 1) fuel
      | .fault r => some (.fault r)
      | .refused r => some (.refused r)

end Sys2Proof.Machine
end

