-- ==== Sys2Proof/Machine/Timing.lean ====
section
/-! DEFINITION. The processor cycles of every form (70_reset_and_hazards.md R302; 30_encoding.md R82). They have no effect on the
state, and the machine has no clock (D36, log 31). A form an instruction does not have counts 0. -/

namespace Sys2Proof

/-- Read-modify-write (R160). -/
def Ea.rmwCycles : Ea → Nat
  | .dir _ => 4
  | .ext _ => 0
  | .ix2 _ => 0
  | .ix1 _ => 4
  | .ix => 3
  | .sp1 _ => 5
  | .sp2 _ => 0

/-- TST and CLR (R160). -/
def Ea.testCycles : Ea → Nat
  | .dir _ => 3
  | .ext _ => 0
  | .ix2 _ => 0
  | .ix1 _ => 3
  | .ix => 2
  | .sp1 _ => 4
  | .sp2 _ => 0

/-- DBNZ (R183). -/
def Ea.dbnzCycles : Ea → Nat
  | .dir _ => 5
  | .ext _ => 0
  | .ix2 _ => 0
  | .ix1 _ => 5
  | .ix => 4
  | .sp1 _ => 6
  | .sp2 _ => 0

/-- Register/memory (R230). -/
def Ea.cycles : Ea → Nat
  | .dir _ => 3
  | .ext _ => 4
  | .ix2 _ => 4
  | .ix1 _ => 3
  | .ix => 2
  | .sp1 _ => 4
  | .sp2 _ => 5

/-- JMP (R240). -/
def Ea.jmpCycles : Ea → Nat
  | .dir _ => 2
  | .ext _ => 3
  | .ix2 _ => 4
  | .ix1 _ => 3
  | .ix => 2
  | .sp1 _ => 0
  | .sp2 _ => 0

/-- JSR (R241). -/
def Ea.jsrCycles : Ea → Nat
  | .dir _ => 4
  | .ext _ => 5
  | .ix2 _ => 6
  | .ix1 _ => 5
  | .ix => 4
  | .sp1 _ => 0
  | .sp2 _ => 0

/-- Register/memory with an immediate form (R230). -/
def Src.cycles : Src → Nat
  | .imm _ => 2
  | .mem ea => ea.cycles

/-- LDHX and CPHX (R185, R181). -/
def Src16.cycles : Src16 → Nat
  | .imm _ => 3
  | .dir _ => 4

/-- MOV (R186). -/
def MovForm.cycles : MovForm → Nat
  | .dd _ _ => 5
  | .dixp _ => 4
  | .imd _ _ => 4
  | .ixpd _ => 4

/-- CBEQ on memory (R180). -/
def CbeqForm.cycles : CbeqForm → Nat
  | .dir _ => 5
  | .ix1p _ => 5
  | .ixp => 4
  | .sp1 _ => 6

/-- The processor cycles of an instruction (R302). -/
def Instr.cycles : Instr → Nat
  | .brset _ _ _ => 5
  | .brclr _ _ _ => 5
  | .bset _ _ => 4
  | .bclr _ _ => 4
  | .bra _ => 3
  | .brn _ => 3
  | .bhi _ => 3
  | .bls _ => 3
  | .bcc _ => 3
  | .bcs _ => 3
  | .bne _ => 3
  | .beq _ => 3
  | .bhcc _ => 3
  | .bhcs _ => 3
  | .bpl _ => 3
  | .bmi _ => 3
  | .bmc _ => 3
  | .bms _ => 3
  | .bil _ => 3
  | .bih _ => 3
  | .neg ea => ea.rmwCycles
  | .cbeq form _ => form.cycles
  | .com ea => ea.rmwCycles
  | .lsr ea => ea.rmwCycles
  | .sthx _ => 4
  | .ror ea => ea.rmwCycles
  | .asr ea => ea.rmwCycles
  | .lsl ea => ea.rmwCycles
  | .rol ea => ea.rmwCycles
  | .dec ea => ea.rmwCycles
  | .dbnz ea _ => ea.dbnzCycles
  | .inc ea => ea.rmwCycles
  | .tst ea => ea.testCycles
  | .clr ea => ea.testCycles
  | .nega => 1
  | .cbeqa _ _ => 4
  | .mul => 5
  | .coma => 1
  | .lsra => 1
  | .ldhx src => src.cycles
  | .rora => 1
  | .asra => 1
  | .lsla => 1
  | .rola => 1
  | .deca => 1
  | .dbnza _ => 3
  | .inca => 1
  | .tsta => 1
  | .mov form => form.cycles
  | .clra => 1
  | .negx => 1
  | .cbeqx _ _ => 4
  | .div => 7
  | .comx => 1
  | .lsrx => 1
  | .rorx => 1
  | .asrx => 1
  | .lslx => 1
  | .rolx => 1
  | .decx => 1
  | .dbnzx _ => 3
  | .incx => 1
  | .tstx => 1
  | .clrx => 1
  | .nsa => 3
  | .cphx src => src.cycles
  | .daa => 2
  | .rti => 7
  | .rts => 4
  | .swi => 9
  | .tap => 2
  | .tpa => 1
  | .pula => 2
  | .psha => 2
  | .pulx => 2
  | .pshx => 2
  | .pulh => 2
  | .pshh => 2
  | .clrh => 1
  | .stop => 1
  | .wait => 1
  | .bge _ => 3
  | .blt _ => 3
  | .bgt _ => 3
  | .ble _ => 3
  | .txs => 2
  | .tsx => 2
  | .tax => 1
  | .clc => 1
  | .sec => 1
  | .cli => 2
  | .sei => 2
  | .rsp => 1
  | .nop => 1
  | .txa => 1
  | .sub src => src.cycles
  | .cmp src => src.cycles
  | .sbc src => src.cycles
  | .cpx src => src.cycles
  | .and src => src.cycles
  | .bit src => src.cycles
  | .lda src => src.cycles
  | .ais _ => 2
  | .eor src => src.cycles
  | .adc src => src.cycles
  | .ora src => src.cycles
  | .add src => src.cycles
  | .bsr _ => 4
  | .ldx src => src.cycles
  | .aix _ => 2
  | .sta ea => ea.cycles
  | .jmp ea => ea.jmpCycles
  | .jsr ea => ea.jsrCycles
  | .stx ea => ea.cycles
  | .asl ea => ea.rmwCycles
  | .asla => 1
  | .aslx => 1
  | .bhs _ => 3
  | .blo _ => 3

end Sys2Proof
end

