-- ==== Sys2Proof/Safety.lean ====
section
/-! DEFINITION. The terms the statements use: what counts as a safe run, the invariant of the machine, what each instruction
may store, write and do to the flags, and the shapes of the instruction families. -/

namespace Sys2Proof

/-- Whether a form of CBEQ increments H:X (R92, R93). -/
def CbeqForm.steps : CbeqForm → Bool
  | .dir _ => false
  | .ix1p _ => true
  | .ixp => true
  | .sp1 _ => false

/-- Whether a form of MOV increments H:X (R97, R98). -/
def MovForm.steps : MovForm → Bool
  | .dd _ _ => false
  | .dixp _ => true
  | .imd _ _ => false
  | .ixpd _ => true

end Sys2Proof

namespace Sys2Proof.Machine

/-! ### Runs and the invariant -/

/-- A state from which no run, however long, ends in a fault or a refusal (R261). -/
def NeverStops (s : State) : Prop :=
  ∀ n, ∃ t, Host.Core.run Sys2Proof.core n s = .next t

/-- What the low-power states promise: outside the running state I is 0 (R277) and no mask history is left; while stopped or
recovering the /IRQ pin interrupt is enabled (R275); the delay is at most 4095 cycles (R303). -/
def RunState.Consistent (s : State) : RunState → Prop
  | .running => True
  | .waiting => s.ccr.i = false ∧ s.mask = .none
  | .stopped => s.ccr.i = false ∧ s.mask = .none ∧ s.irqEnable = true
  | .recovering cyclesLeft _ => s.ccr.i = false ∧ s.mask = .none ∧ s.irqEnable = true ∧ cyclesLeft ≤ 4095

/-- What the mask history says of I (R265, R296, R297). -/
def MaskHistory.Consistent (i : Bool) : MaskHistory → Prop
  | .none => True
  | .justSet => i = true
  | .justCleared => i = false

/-- The invariant of the machine: memory is in canonical form, and the run state and the mask history agree with I. -/
def State.Inv (s : State) : Prop :=
  s.mem.wf = true ∧ s.run.Consistent s ∧ s.mask.Consistent s.ccr.i

/-- Every address answers a data access (R60). -/
def State.AllPresent (s : State) : Prop :=
  ∀ addr, s.present addr = true

/-- An address holds memory: a byte that a read returns and that no read changes (R60). -/
def State.memoryAt (s : State) (addr : Word) : Prop :=
  s.kind addr = .ram ∨ s.kind addr = .rom

/-! ### What an instruction may change -/

/-- The addresses an instruction stores to, computed in the state it starts in (R55, R56). -/
def stores (s : State) : Instr → List Word
  | .brset _ _ _ => []
  | .brclr _ _ _ => []
  | .bset _ dd => [directAddr dd]
  | .bclr _ dd => [directAddr dd]
  | .bra _ => []
  | .brn _ => []
  | .bhi _ => []
  | .bls _ => []
  | .bcc _ => []
  | .bcs _ => []
  | .bne _ => []
  | .beq _ => []
  | .bhcc _ => []
  | .bhcs _ => []
  | .bpl _ => []
  | .bmi _ => []
  | .bmc _ => []
  | .bms _ => []
  | .bil _ => []
  | .bih _ => []
  | .neg ea => [s.ea ea]
  | .cbeq _ _ => []
  | .com ea => [s.ea ea]
  | .lsr ea => [s.ea ea]
  | .sthx dd => [directAddr dd, directAddr dd + 1]
  | .ror ea => [s.ea ea]
  | .asr ea => [s.ea ea]
  | .lsl ea => [s.ea ea]
  | .rol ea => [s.ea ea]
  | .dec ea => [s.ea ea]
  | .dbnz ea _ => [s.ea ea]
  | .inc ea => [s.ea ea]
  | .tst _ => []
  | .clr ea => [s.ea ea]
  | .nega => []
  | .cbeqa _ _ => []
  | .mul => []
  | .coma => []
  | .lsra => []
  | .ldhx _ => []
  | .rora => []
  | .asra => []
  | .lsla => []
  | .rola => []
  | .deca => []
  | .dbnza _ => []
  | .inca => []
  | .tsta => []
  | .mov form => [s.movDest form]
  | .clra => []
  | .negx => []
  | .cbeqx _ _ => []
  | .div => []
  | .comx => []
  | .lsrx => []
  | .rorx => []
  | .asrx => []
  | .lslx => []
  | .rolx => []
  | .decx => []
  | .dbnzx _ => []
  | .incx => []
  | .tstx => []
  | .clrx => []
  | .nsa => []
  | .cphx _ => []
  | .daa => []
  | .rti => []
  | .rts => []
  | .swi => [s.sp, s.sp - 1, s.sp - 2, s.sp - 3, s.sp - 4]
  | .tap => []
  | .tpa => []
  | .pula => []
  | .psha => [s.sp]
  | .pulx => []
  | .pshx => [s.sp]
  | .pulh => []
  | .pshh => [s.sp]
  | .clrh => []
  | .stop => []
  | .wait => []
  | .bge _ => []
  | .blt _ => []
  | .bgt _ => []
  | .ble _ => []
  | .txs => []
  | .tsx => []
  | .tax => []
  | .clc => []
  | .sec => []
  | .cli => []
  | .sei => []
  | .rsp => []
  | .nop => []
  | .txa => []
  | .sub _ => []
  | .cmp _ => []
  | .sbc _ => []
  | .cpx _ => []
  | .and _ => []
  | .bit _ => []
  | .lda _ => []
  | .ais _ => []
  | .eor _ => []
  | .adc _ => []
  | .ora _ => []
  | .add _ => []
  | .bsr _ => [s.sp, s.sp - 1]
  | .ldx _ => []
  | .aix _ => []
  | .sta ea => [s.ea ea]
  | .jmp _ => []
  | .jsr _ => [s.sp, s.sp - 1]
  | .stx ea => [s.ea ea]
  | .asl ea => [s.ea ea]
  | .asla => []
  | .aslx => []
  | .bhs _ => []
  | .blo _ => []

/-- The registers that data is written to, beside PC and the CCR (R21). -/
inductive Reg where
  | a
  | h
  | x
  | sp
  deriving DecidableEq, Repr

/-- Both halves of H:X if a form increments it (R92, R93, R97, R98). -/
def stepped (steps : Bool) : List Reg :=
  if steps then [.h, .x] else []

/-- The registers an instruction writes (R22, R23, R24). -/
def regsWritten : Instr → List Reg
  | .brset _ _ _ => []
  | .brclr _ _ _ => []
  | .bset _ _ => []
  | .bclr _ _ => []
  | .bra _ => []
  | .brn _ => []
  | .bhi _ => []
  | .bls _ => []
  | .bcc _ => []
  | .bcs _ => []
  | .bne _ => []
  | .beq _ => []
  | .bhcc _ => []
  | .bhcs _ => []
  | .bpl _ => []
  | .bmi _ => []
  | .bmc _ => []
  | .bms _ => []
  | .bil _ => []
  | .bih _ => []
  | .neg _ => []
  | .cbeq form _ => stepped form.steps
  | .com _ => []
  | .lsr _ => []
  | .sthx _ => []
  | .ror _ => []
  | .asr _ => []
  | .lsl _ => []
  | .rol _ => []
  | .dec _ => []
  | .dbnz _ _ => []
  | .inc _ => []
  | .tst _ => []
  | .clr _ => []
  | .nega => [.a]
  | .cbeqa _ _ => []
  | .mul => [.a, .x]
  | .coma => [.a]
  | .lsra => [.a]
  | .ldhx _ => [.h, .x]
  | .rora => [.a]
  | .asra => [.a]
  | .lsla => [.a]
  | .rola => [.a]
  | .deca => [.a]
  | .dbnza _ => [.a]
  | .inca => [.a]
  | .tsta => []
  | .mov form => stepped form.steps
  | .clra => [.a]
  | .negx => [.x]
  | .cbeqx _ _ => []
  | .div => [.a, .h]
  | .comx => [.x]
  | .lsrx => [.x]
  | .rorx => [.x]
  | .asrx => [.x]
  | .lslx => [.x]
  | .rolx => [.x]
  | .decx => [.x]
  | .dbnzx _ => [.x]
  | .incx => [.x]
  | .tstx => []
  | .clrx => [.x]
  | .nsa => [.a]
  | .cphx _ => []
  | .daa => [.a]
  | .rti => [.a, .x, .sp]
  | .rts => [.sp]
  | .swi => [.sp]
  | .tap => []
  | .tpa => [.a]
  | .pula => [.a, .sp]
  | .psha => [.sp]
  | .pulx => [.x, .sp]
  | .pshx => [.sp]
  | .pulh => [.h, .sp]
  | .pshh => [.sp]
  | .clrh => [.h]
  | .stop => []
  | .wait => []
  | .bge _ => []
  | .blt _ => []
  | .bgt _ => []
  | .ble _ => []
  | .txs => [.sp]
  | .tsx => [.h, .x]
  | .tax => [.x]
  | .clc => []
  | .sec => []
  | .cli => []
  | .sei => []
  | .rsp => [.sp]
  | .nop => []
  | .txa => [.a]
  | .sub _ => [.a]
  | .cmp _ => []
  | .sbc _ => [.a]
  | .cpx _ => []
  | .and _ => [.a]
  | .bit _ => []
  | .lda _ => [.a]
  | .ais _ => [.sp]
  | .eor _ => [.a]
  | .adc _ => [.a]
  | .ora _ => [.a]
  | .add _ => [.a]
  | .bsr _ => [.sp]
  | .ldx _ => [.x]
  | .aix _ => [.h, .x]
  | .sta _ => []
  | .jmp _ => []
  | .jsr _ => [.sp]
  | .stx _ => []
  | .asl _ => []
  | .asla => [.a]
  | .aslx => [.x]
  | .bhs _ => []
  | .blo _ => []

/-- An entry of the table of flag writes (R39). -/
inductive FlagEffect where
  /-- The cell is empty. -/
  | keep
  | compute
  | clear
  | set
  | undefined
  | load
  deriving DecidableEq, Repr

/-- What an entry promises about a flag's old and new value. -/
def FlagEffect.Holds (old new : Bool) : FlagEffect → Prop
  | .keep => new = old
  | .compute => True
  | .clear => new = false
  | .set => new = true
  | .undefined => True
  | .load => True

/-- A row of that table. -/
structure FlagRow where
  v : FlagEffect
  h : FlagEffect
  i : FlagEffect
  n : FlagEffect
  z : FlagEffect
  c : FlagEffect
  deriving DecidableEq, Repr

/-- The table of flag writes (R39). -/
def flagRow : Instr → FlagRow
  | .brset _ _ _ => ⟨.keep, .keep, .keep, .keep, .keep, .compute⟩
  | .brclr _ _ _ => ⟨.keep, .keep, .keep, .keep, .keep, .compute⟩
  | .bset _ _ => ⟨.keep, .keep, .keep, .keep, .keep, .keep⟩
  | .bclr _ _ => ⟨.keep, .keep, .keep, .keep, .keep, .keep⟩
  | .bra _ => ⟨.keep, .keep, .keep, .keep, .keep, .keep⟩
  | .brn _ => ⟨.keep, .keep, .keep, .keep, .keep, .keep⟩
  | .bhi _ => ⟨.keep, .keep, .keep, .keep, .keep, .keep⟩
  | .bls _ => ⟨.keep, .keep, .keep, .keep, .keep, .keep⟩
  | .bcc _ => ⟨.keep, .keep, .keep, .keep, .keep, .keep⟩
  | .bcs _ => ⟨.keep, .keep, .keep, .keep, .keep, .keep⟩
  | .bne _ => ⟨.keep, .keep, .keep, .keep, .keep, .keep⟩
  | .beq _ => ⟨.keep, .keep, .keep, .keep, .keep, .keep⟩
  | .bhcc _ => ⟨.keep, .keep, .keep, .keep, .keep, .keep⟩
  | .bhcs _ => ⟨.keep, .keep, .keep, .keep, .keep, .keep⟩
  | .bpl _ => ⟨.keep, .keep, .keep, .keep, .keep, .keep⟩
  | .bmi _ => ⟨.keep, .keep, .keep, .keep, .keep, .keep⟩
  | .bmc _ => ⟨.keep, .keep, .keep, .keep, .keep, .keep⟩
  | .bms _ => ⟨.keep, .keep, .keep, .keep, .keep, .keep⟩
  | .bil _ => ⟨.keep, .keep, .keep, .keep, .keep, .keep⟩
  | .bih _ => ⟨.keep, .keep, .keep, .keep, .keep, .keep⟩
  | .neg _ => ⟨.compute, .keep, .keep, .compute, .compute, .compute⟩
  | .cbeq _ _ => ⟨.keep, .keep, .keep, .keep, .keep, .keep⟩
  | .com _ => ⟨.clear, .keep, .keep, .compute, .compute, .set⟩
  | .lsr _ => ⟨.compute, .keep, .keep, .clear, .compute, .compute⟩
  | .sthx _ => ⟨.clear, .keep, .keep, .compute, .compute, .keep⟩
  | .ror _ => ⟨.compute, .keep, .keep, .compute, .compute, .compute⟩
  | .asr _ => ⟨.compute, .keep, .keep, .compute, .compute, .compute⟩
  | .lsl _ => ⟨.compute, .keep, .keep, .compute, .compute, .compute⟩
  | .rol _ => ⟨.compute, .keep, .keep, .compute, .compute, .compute⟩
  | .dec _ => ⟨.compute, .keep, .keep, .compute, .compute, .keep⟩
  | .dbnz _ _ => ⟨.keep, .keep, .keep, .keep, .keep, .keep⟩
  | .inc _ => ⟨.compute, .keep, .keep, .compute, .compute, .keep⟩
  | .tst _ => ⟨.clear, .keep, .keep, .compute, .compute, .keep⟩
  | .clr _ => ⟨.clear, .keep, .keep, .clear, .set, .keep⟩
  | .nega => ⟨.compute, .keep, .keep, .compute, .compute, .compute⟩
  | .cbeqa _ _ => ⟨.keep, .keep, .keep, .keep, .keep, .keep⟩
  | .mul => ⟨.keep, .clear, .keep, .keep, .keep, .clear⟩
  | .coma => ⟨.clear, .keep, .keep, .compute, .compute, .set⟩
  | .lsra => ⟨.compute, .keep, .keep, .clear, .compute, .compute⟩
  | .ldhx _ => ⟨.clear, .keep, .keep, .compute, .compute, .keep⟩
  | .rora => ⟨.compute, .keep, .keep, .compute, .compute, .compute⟩
  | .asra => ⟨.compute, .keep, .keep, .compute, .compute, .compute⟩
  | .lsla => ⟨.compute, .keep, .keep, .compute, .compute, .compute⟩
  | .rola => ⟨.compute, .keep, .keep, .compute, .compute, .compute⟩
  | .deca => ⟨.compute, .keep, .keep, .compute, .compute, .keep⟩
  | .dbnza _ => ⟨.keep, .keep, .keep, .keep, .keep, .keep⟩
  | .inca => ⟨.compute, .keep, .keep, .compute, .compute, .keep⟩
  | .tsta => ⟨.clear, .keep, .keep, .compute, .compute, .keep⟩
  | .mov _ => ⟨.clear, .keep, .keep, .compute, .compute, .keep⟩
  | .clra => ⟨.clear, .keep, .keep, .clear, .set, .keep⟩
  | .negx => ⟨.compute, .keep, .keep, .compute, .compute, .compute⟩
  | .cbeqx _ _ => ⟨.keep, .keep, .keep, .keep, .keep, .keep⟩
  | .div => ⟨.keep, .keep, .keep, .keep, .compute, .compute⟩
  | .comx => ⟨.clear, .keep, .keep, .compute, .compute, .set⟩
  | .lsrx => ⟨.compute, .keep, .keep, .clear, .compute, .compute⟩
  | .rorx => ⟨.compute, .keep, .keep, .compute, .compute, .compute⟩
  | .asrx => ⟨.compute, .keep, .keep, .compute, .compute, .compute⟩
  | .lslx => ⟨.compute, .keep, .keep, .compute, .compute, .compute⟩
  | .rolx => ⟨.compute, .keep, .keep, .compute, .compute, .compute⟩
  | .decx => ⟨.compute, .keep, .keep, .compute, .compute, .keep⟩
  | .dbnzx _ => ⟨.keep, .keep, .keep, .keep, .keep, .keep⟩
  | .incx => ⟨.compute, .keep, .keep, .compute, .compute, .keep⟩
  | .tstx => ⟨.clear, .keep, .keep, .compute, .compute, .keep⟩
  | .clrx => ⟨.clear, .keep, .keep, .clear, .set, .keep⟩
  | .nsa => ⟨.keep, .keep, .keep, .keep, .keep, .keep⟩
  | .cphx _ => ⟨.compute, .keep, .keep, .compute, .compute, .compute⟩
  | .daa => ⟨.undefined, .keep, .keep, .compute, .compute, .compute⟩
  | .rti => ⟨.load, .load, .load, .load, .load, .load⟩
  | .rts => ⟨.keep, .keep, .keep, .keep, .keep, .keep⟩
  | .swi => ⟨.keep, .keep, .set, .keep, .keep, .keep⟩
  | .tap => ⟨.load, .load, .load, .load, .load, .load⟩
  | .tpa => ⟨.keep, .keep, .keep, .keep, .keep, .keep⟩
  | .pula => ⟨.keep, .keep, .keep, .keep, .keep, .keep⟩
  | .psha => ⟨.keep, .keep, .keep, .keep, .keep, .keep⟩
  | .pulx => ⟨.keep, .keep, .keep, .keep, .keep, .keep⟩
  | .pshx => ⟨.keep, .keep, .keep, .keep, .keep, .keep⟩
  | .pulh => ⟨.keep, .keep, .keep, .keep, .keep, .keep⟩
  | .pshh => ⟨.keep, .keep, .keep, .keep, .keep, .keep⟩
  | .clrh => ⟨.clear, .keep, .keep, .clear, .set, .keep⟩
  | .stop => ⟨.keep, .keep, .clear, .keep, .keep, .keep⟩
  | .wait => ⟨.keep, .keep, .clear, .keep, .keep, .keep⟩
  | .bge _ => ⟨.keep, .keep, .keep, .keep, .keep, .keep⟩
  | .blt _ => ⟨.keep, .keep, .keep, .keep, .keep, .keep⟩
  | .bgt _ => ⟨.keep, .keep, .keep, .keep, .keep, .keep⟩
  | .ble _ => ⟨.keep, .keep, .keep, .keep, .keep, .keep⟩
  | .txs => ⟨.keep, .keep, .keep, .keep, .keep, .keep⟩
  | .tsx => ⟨.keep, .keep, .keep, .keep, .keep, .keep⟩
  | .tax => ⟨.keep, .keep, .keep, .keep, .keep, .keep⟩
  | .clc => ⟨.keep, .keep, .keep, .keep, .keep, .clear⟩
  | .sec => ⟨.keep, .keep, .keep, .keep, .keep, .set⟩
  | .cli => ⟨.keep, .keep, .clear, .keep, .keep, .keep⟩
  | .sei => ⟨.keep, .keep, .set, .keep, .keep, .keep⟩
  | .rsp => ⟨.keep, .keep, .keep, .keep, .keep, .keep⟩
  | .nop => ⟨.keep, .keep, .keep, .keep, .keep, .keep⟩
  | .txa => ⟨.keep, .keep, .keep, .keep, .keep, .keep⟩
  | .sub _ => ⟨.compute, .keep, .keep, .compute, .compute, .compute⟩
  | .cmp _ => ⟨.compute, .keep, .keep, .compute, .compute, .compute⟩
  | .sbc _ => ⟨.compute, .keep, .keep, .compute, .compute, .compute⟩
  | .cpx _ => ⟨.compute, .keep, .keep, .compute, .compute, .compute⟩
  | .and _ => ⟨.clear, .keep, .keep, .compute, .compute, .keep⟩
  | .bit _ => ⟨.clear, .keep, .keep, .compute, .compute, .keep⟩
  | .lda _ => ⟨.clear, .keep, .keep, .compute, .compute, .keep⟩
  | .ais _ => ⟨.keep, .keep, .keep, .keep, .keep, .keep⟩
  | .eor _ => ⟨.clear, .keep, .keep, .compute, .compute, .keep⟩
  | .adc _ => ⟨.compute, .compute, .keep, .compute, .compute, .compute⟩
  | .ora _ => ⟨.clear, .keep, .keep, .compute, .compute, .keep⟩
  | .add _ => ⟨.compute, .compute, .keep, .compute, .compute, .compute⟩
  | .bsr _ => ⟨.keep, .keep, .keep, .keep, .keep, .keep⟩
  | .ldx _ => ⟨.clear, .keep, .keep, .compute, .compute, .keep⟩
  | .aix _ => ⟨.keep, .keep, .keep, .keep, .keep, .keep⟩
  | .sta _ => ⟨.clear, .keep, .keep, .compute, .compute, .keep⟩
  | .jmp _ => ⟨.keep, .keep, .keep, .keep, .keep, .keep⟩
  | .jsr _ => ⟨.keep, .keep, .keep, .keep, .keep, .keep⟩
  | .stx _ => ⟨.clear, .keep, .keep, .compute, .compute, .keep⟩
  | .asl _ => ⟨.compute, .keep, .keep, .compute, .compute, .compute⟩
  | .asla => ⟨.compute, .keep, .keep, .compute, .compute, .compute⟩
  | .aslx => ⟨.compute, .keep, .keep, .compute, .compute, .compute⟩
  | .bhs _ => ⟨.keep, .keep, .keep, .keep, .keep, .keep⟩
  | .blo _ => ⟨.keep, .keep, .keep, .keep, .keep, .keep⟩

/-! ### The shapes of the families -/

/-- An instruction has these words, their number is its length (R104), and it takes this many cycles (R302). -/
def HasForm (i : Instr) (words : List Byte) (cycles : Nat) : Prop :=
  encode i = words ∧ i.length = words.length ∧ i.cycles = cycles

/-- The eight forms of a register/memory instruction in row `row` of the opcode map (R230). -/
def SrcForms (i : Src → Instr) (row : Byte) : Prop :=
  ∀ ii dd ff hh ll ee : Byte,
    HasForm (i (.imm ii)) [0xA0 ||| row, ii] 2 ∧
    HasForm (i (.mem (.dir dd))) [0xB0 ||| row, dd] 3 ∧
    HasForm (i (.mem (.ext (hh ++ ll)))) [0xC0 ||| row, hh, ll] 4 ∧
    HasForm (i (.mem (.ix2 (ee ++ ff)))) [0xD0 ||| row, ee, ff] 4 ∧
    HasForm (i (.mem (.ix1 ff))) [0xE0 ||| row, ff] 3 ∧
    HasForm (i (.mem .ix)) [0xF0 ||| row] 2 ∧
    HasForm (i (.mem (.sp1 ff))) [0x9E, 0xE0 ||| row, ff] 4 ∧
    HasForm (i (.mem (.sp2 (ee ++ ff)))) [0x9E, 0xD0 ||| row, ee, ff] 5

/-- The seven forms of a store in row `row` (R230). -/
def StoreForms (i : Ea → Instr) (row : Byte) : Prop :=
  ∀ dd ff hh ll ee : Byte,
    HasForm (i (.dir dd)) [0xB0 ||| row, dd] 3 ∧
    HasForm (i (.ext (hh ++ ll))) [0xC0 ||| row, hh, ll] 4 ∧
    HasForm (i (.ix2 (ee ++ ff))) [0xD0 ||| row, ee, ff] 4 ∧
    HasForm (i (.ix1 ff)) [0xE0 ||| row, ff] 3 ∧
    HasForm (i .ix) [0xF0 ||| row] 2 ∧
    HasForm (i (.sp1 ff)) [0x9E, 0xE0 ||| row, ff] 4 ∧
    HasForm (i (.sp2 (ee ++ ff))) [0x9E, 0xD0 ||| row, ee, ff] 5

/-- The five forms of JMP or JSR in row `row`, with the cycles of DIR, EXT, IX2, IX1, IX (R240, R241). -/
def JumpForms (i : Ea → Instr) (row : Byte) (dir ext ix2 ix1 ix : Nat) : Prop :=
  ∀ dd ff hh ll ee : Byte,
    HasForm (i (.dir dd)) [0xB0 ||| row, dd] dir ∧
    HasForm (i (.ext (hh ++ ll))) [0xC0 ||| row, hh, ll] ext ∧
    HasForm (i (.ix2 (ee ++ ff))) [0xD0 ||| row, ee, ff] ix2 ∧
    HasForm (i (.ix1 ff)) [0xE0 ||| row, ff] ix1 ∧
    HasForm (i .ix) [0xF0 ||| row] ix

/-- The six forms of a read-modify-write instruction in row `row`, with the cycles of DIR and IX1, IX, SP1 (R160). -/
def RmwForms (mem : Ea → Instr) (onA onX : Instr) (row : Byte) (dir ix sp1 : Nat) : Prop :=
  ∀ dd ff : Byte,
    HasForm (mem (.dir dd)) [0x30 ||| row, dd] dir ∧
    HasForm onA [0x40 ||| row] 1 ∧
    HasForm onX [0x50 ||| row] 1 ∧
    HasForm (mem (.ix1 ff)) [0x60 ||| row, ff] dir ∧
    HasForm (mem .ix) [0x70 ||| row] ix ∧
    HasForm (mem (.sp1 ff)) [0x9E, 0x60 ||| row, ff] sp1

/-- The byte a register/memory operand stands for (R84, R230). -/
def State.operand (s : State) : Src → Byte
  | .imm ii => ii
  | .mem ea => s.byteAt (s.ea ea)

/-- Whether that byte can be read: an immediate always, a memory byte if its address is implemented (R60, R84). -/
def State.operandReady (s : State) : Src → Bool
  | .imm _ => true
  | .mem ea => s.present (s.ea ea)

/-- The state after that byte was read: only a read of a device leaves a trace (R60). -/
def State.afterOperand (s : State) : Src → State
  | .imm _ => s
  | .mem ea => s.afterRead (s.ea ea)

/-- Whether an integer lies outside the signed byte range (R6, R27). -/
def outOfByte (n : Int) : Bool :=
  decide (n < -128 ∨ 127 < n)

/-- The flags after an addition of two bytes and a carry (R13). V is the signed overflow (D11, PRESUMED, log 20). -/
def sumFlags (a m : Byte) (cin : Bool) (f : Flags) : Flags :=
  { f with
    v := outOfByte (a.toInt + m.toInt + cin.toNat)
    h := decide (16 ≤ a.toNat % 16 + m.toNat % 16 + cin.toNat)
    n := (a + m + (BitVec.ofBool cin).zeroExtend 8).msb
    z := a + m + (BitVec.ofBool cin).zeroExtend 8 == 0
    c := decide (256 ≤ a.toNat + m.toNat + cin.toNat) }

/-- The flags after a subtraction of a byte and a borrow from a byte (R14). V is the signed overflow (D11, PRESUMED, log 20); H is
unchanged (D12, log 23). -/
def differenceFlags (a m : Byte) (bin : Bool) (f : Flags) : Flags :=
  { f with
    v := outOfByte (a.toInt - m.toInt - bin.toNat)
    n := (a - m - (BitVec.ofBool bin).zeroExtend 8).msb
    z := a - m - (BitVec.ofBool bin).zeroExtend 8 == 0
    c := decide (a.toNat < m.toNat + bin.toNat) }

/-- The flags after a comparison of two 16-bit values (R15; D24, PRESUMED, log 26). -/
def compareFlags (a m : Word) (f : Flags) : Flags :=
  { f with
    v := decide (a.toInt - m.toInt < -32768 ∨ 32767 < a.toInt - m.toInt)
    n := (a - m).msb
    z := a == m
    c := decide (a.toNat < m.toNat) }

/-- The flags after a shift or rotate with result `r` that shifted out `out`: `V = N xor C` (R160; D11, PRESUMED, log 20). -/
def shiftedFlags (r : Byte) (out : Bool) (f : Flags) : Flags :=
  { f with v := r.msb ^^ out, n := r.msb, z := r == 0, c := out }

/-- The flags of loads, stores, moves and logic: V cleared, N and Z from the value, C and H kept (R16, R39). -/
def valueFlags (r : Byte) (f : Flags) : Flags :=
  { f with v := false, n := r.msb, z := r == 0 }

/-- The same for the 16-bit value `hi:lo` (R16; D24, PRESUMED, log 26). -/
def valueFlags16 (hi lo : Byte) (f : Flags) : Flags :=
  { f with v := false, n := hi.msb, z := hi == 0 && lo == 0 }

/-- The 16-bit operand of LDHX and CPHX, its high byte at the lower address, read first (R52, R55, R108). -/
def State.operand16 (s : State) : Src16 → Word
  | .imm v => v
  | .dir dd => wordOf (s.byteAt (directAddr dd)) ((s.afterRead (directAddr dd)).byteAt (directAddr dd + 1))

/-- Whether that operand can be read (R60). -/
def State.operand16Ready (s : State) : Src16 → Bool
  | .imm _ => true
  | .dir dd => s.present (directAddr dd) && s.present (directAddr dd + 1)

/-- The state after that operand was read. -/
def State.afterOperand16 (s : State) : Src16 → State
  | .imm _ => s
  | .dir dd => (s.afterRead (directAddr dd)).afterRead (directAddr dd + 1)

/-- A register/memory instruction has the effect `f` of the state and the operand byte on registers and flags, then goes on to
the next instruction; it answers a next state whenever its operand can be read. -/
def SrcMeans (i : Src → Instr) (f : State → Byte → State) : Prop :=
  ∀ src s, s.operandReady src = true →
    exec (i src) s = .next { f (s.afterOperand src) (s.operand src) with pc := s.pc + BitVec.ofNat 16 src.length }

/-- A read-modify-write instruction gives its operand, in memory, in A or in X, the value `new` of the old one and the old
flags, and the flags the value `flags` of them. -/
def RmwMeans (mem : Ea → Instr) (onA onX : Instr) (new : Byte → Flags → Byte) (flags : Byte → Flags → Flags) : Prop :=
  ∀ s : State,
    (∀ ea, s.present (s.ea ea) = true →
      exec (mem ea) s = .next
        { (s.afterRead (s.ea ea)).afterWrite (s.ea ea) (new (s.byteAt (s.ea ea)) s.ccr) with
          ccr := flags (s.byteAt (s.ea ea)) s.ccr
          pc := s.pc + BitVec.ofNat 16 ea.length }) ∧
    exec onA s = .next { s with a := new s.a s.ccr, ccr := flags s.a s.ccr, pc := s.pc + 1 } ∧
    exec onX s = .next { s with x := new s.x s.ccr, ccr := flags s.x s.ccr, pc := s.pc + 1 }

/-- A conditional branch with opcode `op` goes to `PC0 + 2 + rr`, `rr` signed, if `cond` holds and to `PC0 + 2` if not; nothing
else changes (R130). -/
def BranchMeans (i : Byte → Instr) (op : Byte) (cond : State → Bool) : Prop :=
  ∀ rr s, HasForm (i rr) [op, rr] 3 ∧
    exec (i rr) s = .next { s with pc := if cond s then s.pc + 2 + rr.signExtend 16 else s.pc + 2 }

/-- A one-byte instruction with opcode `op` and these cycles has the effect `f` and goes on to the next instruction. -/
def InherentMeans (i : Instr) (op : Byte) (cycles : Nat) (f : State → State) : Prop :=
  HasForm i [op] cycles ∧ ∀ s, exec i s = .next { f s with pc := s.pc + 1 }

end Sys2Proof.Machine
end

