-- ==== Sys2Proof/Certificates/Slice0/Obligations.lean ====
section
/-! DEFINITION. The statements about the model, to be proved. Statements about memory forms hold for every value of every
operand; a premise `s.present a` says that the platform implements the address (R60, R261). -/

open Sys2Proof Sys2Proof.Machine

/-! ### Encoding -/

/-- Decoding the words of a well-formed instruction gives the instruction back, whatever bytes follow; a second name gives the
core instruction (R80 to R82, R103). -/
def Obligations.DecodeEncodeRoundTrip : Prop :=
  ∀ (i : Instr) (rest : List Byte), i.wellFormed = true → decode (encode i ++ rest) = .ok i.canonical

/-- Whatever decodes is well-formed and core, and the bytes it was decoded from are its words: no word has two readings and
no byte is ignored (R81, R82, R104). -/
def Obligations.EncodeDecodeRoundTrip : Prop :=
  ∀ (bytes : List Byte) (i : Instr), decode bytes = .ok i →
    i.wellFormed = true ∧ i.canonical = i ∧ i.length ≤ bytes.length ∧ bytes.take i.length = encode i

/-- Exactly six first bytes are unassigned, and after the prebyte exactly the second bytes other than the 41 listed ones (R99,
R100). -/
def Obligations.UnassignedEncodings : Prop :=
  ∀ (b : Byte) (rest : List Byte),
    (decode (b :: rest) = .error (.unassigned b) ↔ b ∈ ([0x32, 0x3E, 0x82, 0x8D, 0x96, 0xAC] : List Byte)) ∧
    (decode (0x9E :: b :: rest) = .error (.unassignedPage2 b) ↔
      b ∉ ([0x60, 0x61, 0x63, 0x64, 0x66, 0x67, 0x68, 0x69, 0x6A, 0x6B, 0x6C, 0x6D, 0x6F,
        0xD0, 0xD1, 0xD2, 0xD3, 0xD4, 0xD5, 0xD6, 0xD7, 0xD8, 0xD9, 0xDA, 0xDB, 0xDE, 0xDF,
        0xE0, 0xE1, 0xE2, 0xE3, 0xE4, 0xE5, 0xE6, 0xE7, 0xE8, 0xE9, 0xEA, 0xEB, 0xEE, 0xEF] : List Byte))

/-- A few words, written out from the table of R82, decode to what they stand for, one or more of every family. -/
def Obligations.SampleWordsDecode : Prop :=
  decode [0x15, 0x40] = .ok (.bclr 2 0x40) ∧
  decode [0x04, 0x40, 0x04] = .ok (.brset 2 0x40 0x04) ∧
  decode [0x26, 0xFE] = .ok (.bne 0xFE) ∧
  decode [0x9E, 0x6F, 0x01] = .ok (.clr (.sp1 0x01)) ∧
  decode [0x61, 0x02, 0x09] = .ok (.cbeq (.ix1p 0x02) 0x09) ∧
  decode [0x4E, 0x10, 0x20] = .ok (.mov (.dd 0x10 0x20)) ∧
  decode [0x83] = .ok .swi ∧
  decode [0xD6, 0x12, 0x34] = .ok (.lda (.mem (.ix2 0x1234))) ∧
  decode [0x9E, 0xDA, 0x12, 0x34] = .ok (.ora (.mem (.sp2 0x1234)))

/-- The two names of one encoding have the same words, length, cycles and meaning (R103, R139, R143, R161). -/
def Obligations.AliasesAgree : Prop :=
  (∀ ea, encode (.asl ea) = encode (.lsl ea) ∧ Instr.length (.asl ea) = Instr.length (.lsl ea) ∧
    Instr.cycles (.asl ea) = Instr.cycles (.lsl ea) ∧ ∀ s, exec (.asl ea) s = exec (.lsl ea) s) ∧
  (encode .asla = encode .lsla ∧ Instr.length .asla = Instr.length .lsla ∧ Instr.cycles .asla = Instr.cycles .lsla ∧
    ∀ s, exec .asla s = exec .lsla s) ∧
  (encode .aslx = encode .lslx ∧ Instr.length .aslx = Instr.length .lslx ∧ Instr.cycles .aslx = Instr.cycles .lslx ∧
    ∀ s, exec .aslx s = exec .lslx s) ∧
  (∀ rr, encode (.bhs rr) = encode (.bcc rr) ∧ Instr.length (.bhs rr) = Instr.length (.bcc rr) ∧
    Instr.cycles (.bhs rr) = Instr.cycles (.bcc rr) ∧ ∀ s, exec (.bhs rr) s = exec (.bcc rr) s) ∧
  (∀ rr, encode (.blo rr) = encode (.bcs rr) ∧ Instr.length (.blo rr) = Instr.length (.bcs rr) ∧
    Instr.cycles (.blo rr) = Instr.cycles (.bcs rr) ∧ ∀ s, exec (.blo rr) s = exec (.bcs rr) s)

/-! ### The step -/

/-- In the running state, with no reset at the boundary or inside the instruction and no interrupt recognised, a step executes the
instruction that the bytes at PC decode to, with the mask history spent, and the environment moves on (R81, R265). How the inputs
are held is the model's choice (logs 13, 17, 19). -/
def Obligations.StepRunsDecoded : Prop :=
  ∀ (s : State) (i : Instr), s.run = .running → s.env.reset = false → s.env.cut = none → s.recognised = none →
    decode s.fetchBytes = .ok i → step s = mapNext State.tick (exec i (s.setMask .none))

/-- The same from memory: if the words of a well-formed instruction lie at PC and the following addresses modulo 65536, in
memory that can be fetched, a step executes that instruction (R53, R57, R81, R105). -/
def Obligations.StepRunsStoredWords : Prop :=
  ∀ (s : State) (i : Instr), s.run = .running → s.env.reset = false → s.env.cut = none → s.recognised = none →
    i.wellFormed = true →
    (∀ k, k < (encode i).length →
      s.memoryAt (s.pc + BitVec.ofNat 16 k) ∧ (encode i)[k]? = some (s.peek (s.pc + BitVec.ofNat 16 k))) →
    step s = mapNext State.tick (exec i.canonical (s.setMask .none))

/-- Bytes at PC that spell no instruction. An unassigned encoding: the fault with the address and the bytes, or, by the parameter, a
reset (R101, R261). Bytes that end too early, at an address that is not memory: the fetch fault with that address (R60). The faults
are the spec's own decisions D2 and D20 (logs 9, 12). -/
def Obligations.StepWithoutInstruction : Prop :=
  ∀ s : State, s.run = .running → s.env.reset = false → s.env.cut = none → s.recognised = none →
    (∀ b0, decode s.fetchBytes = .error (.unassigned b0) →
      (s.cfg.illegalAction = .fault → step s = .fault (.illegalOpcode s.pc [b0])) ∧
      (s.cfg.illegalAction = .reset → step s = mapNext State.tick (s.setMask .none).takeReset)) ∧
    (∀ b1, decode s.fetchBytes = .error (.unassignedPage2 b1) →
      (s.cfg.illegalAction = .fault → step s = .fault (.illegalOpcode s.pc [0x9E, b1])) ∧
      (s.cfg.illegalAction = .reset → step s = mapNext State.tick (s.setMask .none).takeReset)) ∧
    (decode s.fetchBytes = .error .truncated →
      ∃ k, k < 4 ∧ ¬ s.memoryAt (s.pc + BitVec.ofNat 16 k) ∧
        (∀ j, j < k → s.memoryAt (s.pc + BitVec.ofNat 16 j)) ∧
        step s = .fault (.fetchFromNonMemory (s.pc + BitVec.ofNat 16 k)))

/-! ### Whole-machine rules -/

/-- The invariant holds after reset. -/
def Obligations.ResetInv : Prop :=
  State.reset.Inv

/-- Every step from a state with the invariant, reachable or not, keeps it. -/
def Obligations.StepKeepsInv : Prop :=
  ∀ s t : State, s.Inv → step s = .next t → t.Inv

/-- Where every address is implemented, no instruction can fault: each of them, in every form, answers a next state from every
state (R261). -/
def Obligations.EveryInstructionCompletes : Prop :=
  ∀ s : State, s.AllPresent → ∀ i : Instr, ∃ t : State, exec i s = .next t

/-- A machine whose addresses are all memory and whose illegal opcodes reset runs for ever from every state, also one that resets cut
off inside an instruction (R261, R276, R290). If a budget of steps is among its run ends, a run from it is over within the
budget, in the state reached after the steps it took (R4; D31, log 34). -/
def Obligations.PlainMachineNeverStops : Prop :=
  ∀ s : State, s.cfg.memMap = [] → s.cfg.illegalAction = .reset →
    NeverStops s ∧
    ∀ n, EndCondition.steps n ∈ s.cfg.runEnd →
      ∃ k t, k ≤ n ∧ Host.Core.run Sys2Proof.core k s = .next t ∧ t.ended k = true ∧ s.runToEnd 0 n = some (.next t)

/-- Memory frame of every instruction: a byte outside the addresses it stores to, computed in the state before it, reads as
before (R55, R56). -/
def Obligations.MemoryFrame : Prop :=
  ∀ (i : Instr) (s t : State), exec i s = .next t → ∀ addr, addr ∉ stores s i → t.peek addr = s.peek addr

/-- Register frame of every instruction: A, H, X and SP keep their values unless the instruction writes them (R22, R23, R24,
R269). -/
def Obligations.RegisterFrame : Prop :=
  ∀ (i : Instr) (s t : State), exec i s = .next t →
    (Reg.a ∉ regsWritten i → t.a = s.a) ∧ (Reg.h ∉ regsWritten i → t.h = s.h) ∧
    (Reg.x ∉ regsWritten i → t.x = s.x) ∧ (Reg.sp ∉ regsWritten i → t.sp = s.sp)

/-- Every instruction keeps, clears and sets the flags that the table of R39 says it keeps, clears and sets; of a flag that the table
calls computed, loaded or undefined nothing is claimed here, its own rule says the value. That SUB and SBC keep H is D12 and that
TSX, TXA and TXS keep every flag is D13 (DEDUCED, log 23). -/
def Obligations.FlagTable : Prop :=
  ∀ (i : Instr) (s t : State), exec i s = .next t →
    (flagRow i).v.Holds s.ccr.v t.ccr.v ∧ (flagRow i).h.Holds s.ccr.h t.ccr.h ∧ (flagRow i).i.Holds s.ccr.i t.ccr.i ∧
    (flagRow i).n.Holds s.ccr.n t.ccr.n ∧ (flagRow i).z.Holds s.ccr.z t.ccr.z ∧ (flagRow i).c.Holds s.ccr.c t.ccr.c

/-- The rest of the state. The environment and the parameters are never changed; the run state only by STOP, WAIT and SWI, the enable of
the /IRQ pin only by STOP, the mask history only by CLI, SEI, TAP and RTI. Memory, the writes handed to devices and, but for the
draws of DIV and DAA, the count of free values are what the listed accesses of the instruction make of them, one after the other, so
an instruction that touches no device changes neither; where an instruction faults, they fault the same (R56, R60). These parts of
the state, but memory, are the model's (logs 1, 8, 10, 13, 15, 17); the order of the accesses is D15 and D22 (log 25). -/
def Obligations.HiddenStateFrame : Prop :=
  (∀ (i : Instr) (s t : State), exec i s = .next t →
    t.env = s.env ∧ t.future = s.future ∧ t.cfg = s.cfg ∧
    (i ∉ [Instr.stop, .wait, .swi] → t.run = s.run) ∧ (i ≠ .stop → t.irqEnable = s.irqEnable) ∧
    (i ∉ [Instr.cli, .sei, .tap, .rti] → t.mask = s.mask) ∧
    (∃ u, s.replay (s.accesses i) .next = .next u ∧ t.mem = u.mem ∧ t.devOut = u.devOut ∧
      (i ∉ [Instr.div, .daa] → t.draws = u.draws)) ∧
    ((∀ acc ∈ s.accesses i, s.kind acc.addr ≠ .device) →
      t.devOut = s.devOut ∧ (i ∉ [Instr.div, .daa] → t.draws = s.draws))) ∧
  ∀ (i : Instr) (s : State) (f : Fault), exec i s = .fault f → s.replay (s.accesses i) .next = .fault f

/-! ### Memory and operands -/

/-- What the class of an address makes of a read and of a write (R60; the ignored write to ROM is D20, log 11, the fault at an
unimplemented address D20). A device read yields the next free value, whatever it is. -/
def Obligations.AccessByClass : Prop :=
  ∀ (s : State) (addr : Word) (v : Byte) (read : Byte → State → Out) (written : State → Out),
    (s.memoryAt addr → s.readByte addr read = read (s.peek addr) s) ∧
    (s.kind addr = .device →
      s.readByte addr read = read (Config.freeByte s.draws) { s with draws := s.draws + 1 }) ∧
    (s.kind addr = .unimplemented → s.readByte addr read = .fault (.unimplementedRead addr)) ∧
    (s.kind addr = .ram →
      s.writeByte addr v written = written { s with mem := s.mem.write addr.toNat v }) ∧
    (s.kind addr = .rom → s.writeByte addr v written = written s) ∧
    (s.kind addr = .device →
      s.writeByte addr v written = written { s with devOut := (addr.toNat, v) :: s.devOut }) ∧
    (s.kind addr = .unimplemented → s.writeByte addr v written = .fault (.unimplementedWrite addr))

/-- A store of A to RAM changes that byte alone, and a load from the address it was stored to gives it back (R60, R61, R242,
R246). -/
def Obligations.LoadAfterStore : Prop :=
  ∀ (ea : Ea) (s t : State), s.mem.wf = true → s.kind (s.ea ea) = .ram → exec (.sta ea) s = .next t →
    (∀ addr, t.peek addr = if addr = s.ea ea then s.a else s.peek addr) ∧
    ∃ u : State, exec (.lda (.mem (.ext (s.ea ea)))) t = .next u ∧ u.a = s.a ∧ u.mem = t.mem

/-- The effective addresses, as numbers modulo 65536 (R57, R85 to R91). That 8-bit offsets are unsigned is D8 (PRESUMED, log 21). -/
def Obligations.EffectiveAddresses : Prop :=
  ∀ (s : State) (dd ff : Byte) (v : Word),
    s.ea (.dir dd) = directAddr dd ∧ (directAddr dd).toNat = dd.toNat ∧ s.ea (.ext v) = v ∧
    (s.ea .ix).toNat = s.h.toNat * 256 + s.x.toNat ∧
    (s.ea (.ix1 ff)).toNat = (s.h.toNat * 256 + s.x.toNat + ff.toNat) % 65536 ∧
    (s.ea (.ix2 v)).toNat = (s.h.toNat * 256 + s.x.toNat + v.toNat) % 65536 ∧
    (s.ea (.sp1 ff)).toNat = (s.sp.toNat + ff.toNat) % 65536 ∧
    (s.ea (.sp2 v)).toNat = (s.sp.toNat + v.toNat) % 65536

/-! ### Bit manipulation -/

/-- BSET and BCLR write the byte back with bit n set or cleared and the other seven as they were; no flag changes (R121, R124). -/
def Obligations.BitModify : Prop :=
  ∀ (n : BitVec 3) (dd : Byte) (s : State),
    HasForm (.bset n dd) [0x10 + BitVec.ofNat 8 (2 * n.toNat), dd] 4 ∧
    HasForm (.bclr n dd) [0x11 + BitVec.ofNat 8 (2 * n.toNat), dd] 4 ∧
    (s.present (directAddr dd) = true →
      ∃ set clear : Byte,
        (∀ k, k < 8 → set.getLsbD k = if k = n.toNat then true else (s.byteAt (directAddr dd)).getLsbD k) ∧
        (∀ k, k < 8 → clear.getLsbD k = if k = n.toNat then false else (s.byteAt (directAddr dd)).getLsbD k) ∧
        exec (.bset n dd) s =
          .next { (s.afterRead (directAddr dd)).afterWrite (directAddr dd) set with pc := s.pc + 2 } ∧
        exec (.bclr n dd) s =
          .next { (s.afterRead (directAddr dd)).afterWrite (directAddr dd) clear with pc := s.pc + 2 })

/-- BRSET and BRCLR test bit n of the byte, put it into C, taken or not, and write nothing else but PC (R122, R123; C is D10,
PRESUMED, log 24; the sign of the offset D7, log 21). -/
def Obligations.BitBranch : Prop :=
  ∀ (n : BitVec 3) (dd rr : Byte) (s : State),
    HasForm (.brset n dd rr) [0x00 + BitVec.ofNat 8 (2 * n.toNat), dd, rr] 5 ∧
    HasForm (.brclr n dd rr) [0x01 + BitVec.ofNat 8 (2 * n.toNat), dd, rr] 5 ∧
    (s.present (directAddr dd) = true →
      exec (.brset n dd rr) s = .next
        { s.afterRead (directAddr dd) with
          ccr := { s.ccr with c := (s.byteAt (directAddr dd)).getLsbD n.toNat }
          pc := if (s.byteAt (directAddr dd)).getLsbD n.toNat then s.pc + 3 + rr.signExtend 16 else s.pc + 3 } ∧
      exec (.brclr n dd rr) s = .next
        { s.afterRead (directAddr dd) with
          ccr := { s.ccr with c := (s.byteAt (directAddr dd)).getLsbD n.toNat }
          pc := if (s.byteAt (directAddr dd)).getLsbD n.toNat then s.pc + 3 else s.pc + 3 + rr.signExtend 16 })

/-! ### Branches -/

/-- The conditional branches, BRA and BRN: each goes to the target exactly under its condition on the flags or the pin (R131 to R152).
The sign of the offset is D7 (PRESUMED, log 21); the operators between flags in BHI, BLS, BGE, BLT, BGT and BLE are restored by the
spec (PRESUMED, log 33). -/
def Obligations.ConditionalBranches : Prop :=
  BranchMeans .bra 0x20 (fun _ => true) ∧ BranchMeans .brn 0x21 (fun _ => false) ∧
  BranchMeans .bcc 0x24 (fun s => !s.ccr.c) ∧ BranchMeans .bcs 0x25 (fun s => s.ccr.c) ∧
  BranchMeans .bhs 0x24 (fun s => !s.ccr.c) ∧ BranchMeans .blo 0x25 (fun s => s.ccr.c) ∧
  BranchMeans .bne 0x26 (fun s => !s.ccr.z) ∧ BranchMeans .beq 0x27 (fun s => s.ccr.z) ∧
  BranchMeans .bhcc 0x28 (fun s => !s.ccr.h) ∧ BranchMeans .bhcs 0x29 (fun s => s.ccr.h) ∧
  BranchMeans .bpl 0x2A (fun s => !s.ccr.n) ∧ BranchMeans .bmi 0x2B (fun s => s.ccr.n) ∧
  BranchMeans .bmc 0x2C (fun s => !s.ccr.i) ∧ BranchMeans .bms 0x2D (fun s => s.ccr.i) ∧
  BranchMeans .bil 0x2E (fun s => !s.env.irqPin) ∧ BranchMeans .bih 0x2F (fun s => s.env.irqPin) ∧
  BranchMeans .bhi 0x22 (fun s => !(s.ccr.c || s.ccr.z)) ∧ BranchMeans .bls 0x23 (fun s => s.ccr.c || s.ccr.z) ∧
  BranchMeans .bge 0x90 (fun s => s.ccr.n == s.ccr.v) ∧ BranchMeans .blt 0x91 (fun s => s.ccr.n != s.ccr.v) ∧
  BranchMeans .bgt 0x92 (fun s => !s.ccr.z && s.ccr.n == s.ccr.v) ∧
  BranchMeans .ble 0x93 (fun s => s.ccr.z || s.ccr.n != s.ccr.v)

/-- After CMP, the unsigned branches compare A and the operand as numbers from 0 to 255 and the signed ones as numbers from
-128 to 127; BEQ and BNE compare for equality (R237, R300). V is D11 and the operators are restored (PRESUMED, logs 20, 33). -/
def Obligations.CompareThenBranch : Prop :=
  ∀ (src : Src) (s t : State) (rr : Byte), exec (.cmp src) s = .next t →
    (exec (.bhi rr) t = .next (t.branch 2 rr (decide ((s.operand src).toNat < s.a.toNat)))) ∧
    (exec (.bhs rr) t = .next (t.branch 2 rr (decide ((s.operand src).toNat ≤ s.a.toNat)))) ∧
    (exec (.blo rr) t = .next (t.branch 2 rr (decide (s.a.toNat < (s.operand src).toNat)))) ∧
    (exec (.bls rr) t = .next (t.branch 2 rr (decide (s.a.toNat ≤ (s.operand src).toNat)))) ∧
    (exec (.bgt rr) t = .next (t.branch 2 rr (decide ((s.operand src).toInt < s.a.toInt)))) ∧
    (exec (.bge rr) t = .next (t.branch 2 rr (decide ((s.operand src).toInt ≤ s.a.toInt)))) ∧
    (exec (.blt rr) t = .next (t.branch 2 rr (decide (s.a.toInt < (s.operand src).toInt)))) ∧
    (exec (.ble rr) t = .next (t.branch 2 rr (decide (s.a.toInt ≤ (s.operand src).toInt)))) ∧
    (exec (.beq rr) t = .next (t.branch 2 rr (decide (s.a = s.operand src)))) ∧
    (exec (.bne rr) t = .next (t.branch 2 rr (decide (s.a ≠ s.operand src))))

/-- JMP goes to its effective address and changes nothing else. JSR and BSR push the address of the next instruction, low byte first, so
that its high byte lies below its low byte, lower SP by two, and go to the effective address, computed before the pushes, or to the
target of the offset (R59, R153, R240, R241). The sign of the offset is D7 (PRESUMED, log 21). -/
def Obligations.JumpsAndCalls : Prop :=
  (JumpForms .jmp 0xC 2 3 4 3 2 ∧ JumpForms .jsr 0xD 4 5 6 5 4 ∧ ∀ rr, HasForm (.bsr rr) [0xAD, rr] 4) ∧
  (∀ ea s, exec (.jmp ea) s = .next { s with pc := s.ea ea }) ∧
  ∀ s : State, s.present s.sp = true → s.present (s.sp - 1) = true →
    (∀ ea, exec (.jsr ea) s = .next
      { (s.afterWrite s.sp (loByte (s.pc + BitVec.ofNat 16 ea.length))).afterWrite (s.sp - 1)
          (hiByte (s.pc + BitVec.ofNat 16 ea.length)) with
        sp := s.sp - 2, pc := s.ea ea }) ∧
    (∀ rr, exec (.bsr rr) s = .next
      { (s.afterWrite s.sp (loByte (s.pc + 2))).afterWrite (s.sp - 1) (hiByte (s.pc + 2)) with
        sp := s.sp - 2, pc := s.pc + 2 + rr.signExtend 16 })

/-- A call on a RAM stack and a return: RTS after JSR or BSR is back at the instruction after the call, with SP as before the call and
A, H, X and the flags untouched by the pair (R153, R211, R241). -/
def Obligations.CallThenReturn : Prop :=
  ∀ (s t : State) (len : Nat), s.mem.wf = true → s.kind s.sp = .ram → s.kind (s.sp - 1) = .ram →
    (∃ ea : Ea, ea.length = len ∧ exec (.jsr ea) s = .next t) ∨ (∃ rr, len = 2 ∧ exec (.bsr rr) s = .next t) →
    ∃ u : State, exec .rts t = .next u ∧ u.pc = s.pc + BitVec.ofNat 16 len ∧ u.sp = s.sp ∧
      u.a = s.a ∧ u.h = s.h ∧ u.x = s.x ∧ u.ccr = s.ccr

/-! ### Read-modify-write -/

/-- NEG, INC and DEC, in all six forms. NEG: C is set unless the operand is 0, V exactly at $80. INC and DEC: V exactly at the signed
overflow, C is not written (R165, R166, R169, R299; V is D11, PRESUMED, log 20). -/
def Obligations.NegIncDecMeans : Prop :=
  RmwForms .neg .nega .negx 0x0 4 3 5 ∧
  RmwMeans .neg .nega .negx (fun old _ => -old)
    (fun old f => { f with v := old == 0x80, n := (-old).msb, z := old == 0, c := old != 0 }) ∧
  RmwForms .inc .inca .incx 0xC 4 3 5 ∧ RmwForms .dec .deca .decx 0xA 4 3 5 ∧
  RmwMeans .inc .inca .incx (fun old _ => old + 1)
    (fun old f => { f with v := old == 0x7F, n := (old + 1).msb, z := old == 0xFF }) ∧
  RmwMeans .dec .deca .decx (fun old _ => old - 1)
    (fun old f => { f with v := old == 0x80, n := (old - 1).msb, z := old == 1 })

/-- COM and TST, in all six forms. COM: the one's complement, V cleared, C always set. TST: V cleared, N and Z from the operand, which is
not written (R164, R172). -/
def Obligations.ComTstMeans : Prop :=
  RmwForms .com .coma .comx 0x3 4 3 5 ∧
  RmwMeans .com .coma .comx (fun old _ => 0xFF - old)
    (fun old f => { f with v := false, n := !old.msb, z := old == 0xFF, c := true }) ∧
  RmwForms .tst .tsta .tstx 0xD 3 2 4 ∧
  ∀ s : State,
    (∀ ea, s.present (s.ea ea) = true →
      exec (.tst ea) s = .next { s.afterRead (s.ea ea) with
        ccr := valueFlags (s.byteAt (s.ea ea)) s.ccr, pc := s.pc + BitVec.ofNat 16 ea.length }) ∧
    exec .tsta s = .next { s with ccr := valueFlags s.a s.ccr, pc := s.pc + 1 } ∧
    exec .tstx s = .next { s with ccr := valueFlags s.x s.ccr, pc := s.pc + 1 }

/-- LSL and its second name ASL, ASR, LSR, ROL and ROR, in all six forms: by one bit, the bit shifted out to C, `V = N xor C`
(R160 to R162, R167, R168, R170, R171; V is D11, PRESUMED, log 20). -/
def Obligations.ShiftMeans : Prop :=
  (RmwForms .lsl .lsla .lslx 0x8 4 3 5 ∧ RmwForms .asl .asla .aslx 0x8 4 3 5 ∧ RmwForms .asr .asra .asrx 0x7 4 3 5 ∧
    RmwForms .lsr .lsra .lsrx 0x4 4 3 5 ∧ RmwForms .rol .rola .rolx 0x9 4 3 5 ∧ RmwForms .ror .rora .rorx 0x6 4 3 5) ∧
  RmwMeans .lsl .lsla .lslx (fun old _ => old <<< 1) (fun old f => shiftedFlags (old <<< 1) old.msb f) ∧
  RmwMeans .asl .asla .aslx (fun old _ => old <<< 1) (fun old f => shiftedFlags (old <<< 1) old.msb f) ∧
  RmwMeans .asr .asra .asrx (fun old _ => old.sshiftRight 1)
    (fun old f => shiftedFlags (old.sshiftRight 1) (old.getLsbD 0) f) ∧
  RmwMeans .lsr .lsra .lsrx (fun old _ => old >>> 1) (fun old f => shiftedFlags (old >>> 1) (old.getLsbD 0) f) ∧
  RmwMeans .rol .rola .rolx (fun old f => old <<< 1 ||| (BitVec.ofBool f.c).zeroExtend 8)
    (fun old f => shiftedFlags (old <<< 1 ||| (BitVec.ofBool f.c).zeroExtend 8) old.msb f) ∧
  RmwMeans .ror .rora .rorx (fun old f => old >>> 1 ||| (BitVec.ofBool f.c).zeroExtend 8 <<< 7)
    (fun old f => shiftedFlags (old >>> 1 ||| (BitVec.ofBool f.c).zeroExtend 8 <<< 7) (old.getLsbD 0) f)

/-- CLR, in all seven forms: the byte or the register becomes 0, V and N are cleared, Z is set; a memory form does not read (R163;
that it does not read is D15, log 25). -/
def Obligations.ClrMeans : Prop :=
  (RmwForms .clr .clra .clrx 0xF 3 2 4 ∧ HasForm .clrh [0x8C] 1) ∧
  ∀ s : State,
    (∀ ea, s.present (s.ea ea) = true →
      exec (.clr ea) s = .next { s.afterWrite (s.ea ea) 0 with
        ccr := { s.ccr with v := false, n := false, z := true }, pc := s.pc + BitVec.ofNat 16 ea.length }) ∧
    exec .clra s = .next { s with a := 0, ccr := { s.ccr with v := false, n := false, z := true }, pc := s.pc + 1 } ∧
    exec .clrx s = .next { s with x := 0, ccr := { s.ccr with v := false, n := false, z := true }, pc := s.pc + 1 } ∧
    exec .clrh s = .next { s with h := 0, ccr := { s.ccr with v := false, n := false, z := true }, pc := s.pc + 1 }

/-! ### The other instructions of those columns -/

/-- CBEQ, CBEQA and CBEQX branch on equality and change no flag; the two indexed forms increment all 16 bits of H:X, taken or not,
after the old H:X gave the address (R180; D25, D26, log 27; the sign of the offset is D7, PRESUMED, log 21). -/
def Obligations.CbeqMeans : Prop :=
  ∀ (s : State) (ii dd ff rr : Byte),
    (HasForm (.cbeqa ii rr) [0x41, ii, rr] 4 ∧ HasForm (.cbeqx ii rr) [0x51, ii, rr] 4 ∧
      HasForm (.cbeq (.dir dd) rr) [0x31, dd, rr] 5 ∧ HasForm (.cbeq (.ix1p ff) rr) [0x61, ff, rr] 5 ∧
      HasForm (.cbeq .ixp rr) [0x71, rr] 4 ∧ HasForm (.cbeq (.sp1 ff) rr) [0x9E, 0x61, ff, rr] 6) ∧
    exec (.cbeqa ii rr) s = .next { s with pc := if s.a = ii then s.pc + 3 + rr.signExtend 16 else s.pc + 3 } ∧
    exec (.cbeqx ii rr) s = .next { s with pc := if s.x = ii then s.pc + 3 + rr.signExtend 16 else s.pc + 3 } ∧
    (s.present (s.ea (.dir dd)) = true →
      exec (.cbeq (.dir dd) rr) s = .next { s.afterRead (s.ea (.dir dd)) with
        pc := if s.a = s.byteAt (s.ea (.dir dd)) then s.pc + 3 + rr.signExtend 16 else s.pc + 3 }) ∧
    (s.present (s.ea (.sp1 ff)) = true →
      exec (.cbeq (.sp1 ff) rr) s = .next { s.afterRead (s.ea (.sp1 ff)) with
        pc := if s.a = s.byteAt (s.ea (.sp1 ff)) then s.pc + 4 + rr.signExtend 16 else s.pc + 4 }) ∧
    (s.present (s.ea (.ix1 ff)) = true →
      exec (.cbeq (.ix1p ff) rr) s = .next { s.afterRead (s.ea (.ix1 ff)) with
        h := hiByte (s.hx + 1), x := loByte (s.hx + 1)
        pc := if s.a = s.byteAt (s.ea (.ix1 ff)) then s.pc + 3 + rr.signExtend 16 else s.pc + 3 }) ∧
    (s.present s.hx = true →
      exec (.cbeq .ixp rr) s = .next { s.afterRead s.hx with
        h := hiByte (s.hx + 1), x := loByte (s.hx + 1)
        pc := if s.a = s.byteAt s.hx then s.pc + 2 + rr.signExtend 16 else s.pc + 2 })

/-- DBNZ, DBNZA and DBNZX decrement the counter, X alone in the last, and branch unless it became 0; no flag changes (R183;
the sign of the offset is D7, PRESUMED, log 21). -/
def Obligations.DbnzMeans : Prop :=
  ∀ (s : State) (rr : Byte),
    (HasForm (.dbnza rr) [0x4B, rr] 3 ∧ HasForm (.dbnzx rr) [0x5B, rr] 3 ∧ HasForm (.dbnz .ix rr) [0x7B, rr] 4 ∧
      ∀ b, HasForm (.dbnz (.dir b) rr) [0x3B, b, rr] 5 ∧ HasForm (.dbnz (.ix1 b) rr) [0x6B, b, rr] 5 ∧
        HasForm (.dbnz (.sp1 b) rr) [0x9E, 0x6B, b, rr] 6) ∧
    exec (.dbnza rr) s = .next { s with a := s.a - 1, pc := if s.a = 1 then s.pc + 2 else s.pc + 2 + rr.signExtend 16 } ∧
    exec (.dbnzx rr) s = .next { s with x := s.x - 1, pc := if s.x = 1 then s.pc + 2 else s.pc + 2 + rr.signExtend 16 } ∧
    ∀ ea, s.present (s.ea ea) = true →
      exec (.dbnz ea rr) s = .next
        { (s.afterRead (s.ea ea)).afterWrite (s.ea ea) (s.byteAt (s.ea ea) - 1) with
          pc := if s.byteAt (s.ea ea) = 1 then s.pc + BitVec.ofNat 16 (ea.length + 1)
            else s.pc + BitVec.ofNat 16 (ea.length + 1) + rr.signExtend 16 }

/-- CPHX, in both forms: Z when H:X equals the operand, C when it is lower, N the top bit of the difference, V the signed overflow;
H:X is not changed (R15, R181; D24, PRESUMED, log 26). -/
def Obligations.CphxMeans : Prop :=
  (∀ hi lo dd : Byte, HasForm (.cphx (.imm (hi ++ lo))) [0x65, hi, lo] 3 ∧ HasForm (.cphx (.dir dd)) [0x75, dd] 4) ∧
  ∀ (src : Src16) (s : State), s.operand16Ready src = true →
    exec (.cphx src) s = .next { s.afterOperand16 src with
      ccr := compareFlags (wordOf s.h s.x) (s.operand16 src) s.ccr, pc := s.pc + BitVec.ofNat 16 src.length }

/-- LDHX, in both forms: all of H:X from the 16-bit operand, its high byte at the lower address; N and Z from the 16 bits, V cleared
(R52, R185; D24, PRESUMED, log 26). -/
def Obligations.LdhxMeans : Prop :=
  (∀ hi lo dd : Byte, HasForm (.ldhx (.imm (hi ++ lo))) [0x45, hi, lo] 3 ∧ HasForm (.ldhx (.dir dd)) [0x55, dd] 4) ∧
  ∀ (src : Src16) (s : State), s.operand16Ready src = true →
    ∃ hi lo : Byte, s.operand16 src = wordOf hi lo ∧
      exec (.ldhx src) s = .next { s.afterOperand16 src with
        h := hi, x := lo, ccr := valueFlags16 hi lo s.ccr, pc := s.pc + BitVec.ofNat 16 src.length }

/-- STHX writes H to the direct address, first, and X to the next one, which for $FF is $0100; V cleared, N and Z from the 16 bits. In
RAM the two bytes then read as H and X and every other byte as before (R52, R189; D24, PRESUMED, log 26; D22, log 25). -/
def Obligations.SthxMeans : Prop :=
  (∀ dd, HasForm (.sthx dd) [0x35, dd] 4) ∧
  ∀ (s : State) (dd : Byte), s.present (directAddr dd) = true → s.present (directAddr dd + 1) = true →
    ∃ t : State, exec (.sthx dd) s = .next t ∧
      t = { (s.afterWrite (directAddr dd) s.h).afterWrite (directAddr dd + 1) s.x with
        ccr := valueFlags16 s.h s.x s.ccr, pc := s.pc + 2 } ∧
      (∀ addr, addr ≠ directAddr dd → addr ≠ directAddr dd + 1 → t.peek addr = s.peek addr) ∧
      (s.mem.wf = true → s.kind (directAddr dd) = .ram → t.peek (directAddr dd) = s.h) ∧
      (s.mem.wf = true → s.kind (directAddr dd + 1) = .ram → t.peek (directAddr dd + 1) = s.x)

/-- MOV, in its four forms: the source byte goes to the destination, which is not read; V cleared, N and Z from the byte; the two
indexed forms increment H:X, whose old value gave the address (R186; D23, log 25; D25, D26, log 27). -/
def Obligations.MovMeans : Prop :=
  ∀ (s : State) (src dst ii : Byte),
    (HasForm (.mov (.dd src dst)) [0x4E, src, dst] 5 ∧ HasForm (.mov (.dixp src)) [0x5E, src] 4 ∧
      HasForm (.mov (.imd ii dst)) [0x6E, ii, dst] 4 ∧ HasForm (.mov (.ixpd dst)) [0x7E, dst] 4) ∧
    (s.present (directAddr dst) = true →
      exec (.mov (.imd ii dst)) s = .next { s.afterWrite (directAddr dst) ii with
        ccr := valueFlags ii s.ccr, pc := s.pc + 3 }) ∧
    (s.present (directAddr src) = true → s.present (directAddr dst) = true →
      exec (.mov (.dd src dst)) s = .next
        { (s.afterRead (directAddr src)).afterWrite (directAddr dst) (s.byteAt (directAddr src)) with
          ccr := valueFlags (s.byteAt (directAddr src)) s.ccr, pc := s.pc + 3 }) ∧
    (s.present (directAddr src) = true → s.present (wordOf s.h s.x) = true →
      exec (.mov (.dixp src)) s = .next
        { (s.afterRead (directAddr src)).afterWrite (wordOf s.h s.x) (s.byteAt (directAddr src)) with
          h := hiByte (wordOf s.h s.x + 1), x := loByte (wordOf s.h s.x + 1)
          ccr := valueFlags (s.byteAt (directAddr src)) s.ccr, pc := s.pc + 2 }) ∧
    (s.present (wordOf s.h s.x) = true → s.present (directAddr dst) = true →
      exec (.mov (.ixpd dst)) s = .next
        { (s.afterRead (wordOf s.h s.x)).afterWrite (directAddr dst) (s.byteAt (wordOf s.h s.x)) with
          h := hiByte (wordOf s.h s.x + 1), x := loByte (wordOf s.h s.x + 1)
          ccr := valueFlags (s.byteAt (wordOf s.h s.x)) s.ccr, pc := s.pc + 2 })

/-- MUL: X:A is the whole 16-bit product; the flags H and C are cleared, H the register and the other flags are not touched
(R187). -/
def Obligations.MulMeans : Prop :=
  HasForm .mul [0x42] 5 ∧
  ∀ s : State, ∃ p : Word, p.toNat = s.x.toNat * s.a.toNat ∧
    exec .mul s = .next { s with
      x := hiByte p, a := loByte p, ccr := { s.ccr with h := false, c := false }, pc := s.pc + 1 }

/-- DIV with a quotient that fits: quotient and remainder of H:A by X; on overflow, which is exactly `H >= X`, and on a zero divisor
it goes on with C set, for some A, H and Z (R184; U2, D17, log 8). -/
def Obligations.DivMeans : Prop :=
  HasForm .div [0x52] 7 ∧
  ∀ s : State,
    (s.h.toNat < s.x.toNat →
      ∃ q r : Byte, s.h.toNat * 256 + s.a.toNat = q.toNat * s.x.toNat + r.toNat ∧ r.toNat < s.x.toNat ∧
        exec .div s = .next { s with a := q, h := r, ccr := { s.ccr with z := q == 0, c := false }, pc := s.pc + 1 }) ∧
    (s.x.toNat ≤ s.h.toNat →
      ∃ (q r : Byte) (z : Bool),
        exec .div s = .next { s with
          a := q, h := r, ccr := { s.ccr with z := z, c := true }, pc := s.pc + 1, draws := s.draws + 3 })

/-- DAA after ADD or ADC of two valid BCD bytes: A holds the two low decimal digits of the sum and C its hundreds; H and I keep what
the addition left, N and Z come from A, and V is some value (R182, R304; U1). -/
def Obligations.DaaAfterBcdAddition : Prop :=
  HasForm .daa [0x72] 2 ∧
  ∀ (s t : State) (d1 d0 e1 e0 : Nat) (carry : Bool) (ii : Byte), d1 < 10 → d0 < 10 → e1 < 10 → e0 < 10 →
    s.a = BitVec.ofNat 8 (16 * d1 + d0) → ii = BitVec.ofNat 8 (16 * e1 + e0) →
    (exec (.add (.imm ii)) s = .next t ∧ carry = false ∨ exec (.adc (.imm ii)) s = .next t ∧ carry = s.ccr.c) →
    ∃ (v : Bool) (sum : Nat) (digits : Byte),
      sum = 10 * d1 + d0 + (10 * e1 + e0) + carry.toNat ∧
      digits = BitVec.ofNat 8 (16 * (sum / 10 % 10) + sum % 10) ∧
      exec .daa t = .next { t with
        a := digits
        ccr := { t.ccr with v := v, n := digits.msb, z := digits == 0, c := decide (100 ≤ sum) }
        pc := t.pc + 1, draws := t.draws + 1 }

/-- DAA by the state of C, A[7:4], H and A[3:0]. In each of the nine rows of the table the correction is added, C becomes column 6, N and Z
come from the adjusted A, V is some value, H and I are kept (R182; the rows are DEDUCED, log 29; U1). In the states no row covers it
goes on for some A, C and V, with N and Z computed from that A (U3, D16, log 8). -/
def Obligations.DaaOutsideTable : Prop :=
  HasForm .daa [0x72] 2 ∧
  (∀ (s : State) (correction : Byte) (c : Bool),
    (s.ccr.c = false ∧ s.a.toNat / 16 ≤ 9 ∧ s.ccr.h = false ∧ s.a.toNat % 16 ≤ 9 ∧ correction = 0x00 ∧ c = false ∨
      s.ccr.c = false ∧ s.a.toNat / 16 ≤ 8 ∧ s.ccr.h = false ∧ 10 ≤ s.a.toNat % 16 ∧ correction = 0x06 ∧ c = false ∨
      s.ccr.c = false ∧ s.a.toNat / 16 ≤ 9 ∧ s.ccr.h = true ∧ s.a.toNat % 16 ≤ 3 ∧ correction = 0x06 ∧ c = false ∨
      s.ccr.c = false ∧ 10 ≤ s.a.toNat / 16 ∧ s.ccr.h = false ∧ s.a.toNat % 16 ≤ 9 ∧ correction = 0x60 ∧ c = true ∨
      s.ccr.c = false ∧ 9 ≤ s.a.toNat / 16 ∧ s.ccr.h = false ∧ 10 ≤ s.a.toNat % 16 ∧ correction = 0x66 ∧ c = true ∨
      s.ccr.c = false ∧ 10 ≤ s.a.toNat / 16 ∧ s.ccr.h = true ∧ s.a.toNat % 16 ≤ 3 ∧ correction = 0x66 ∧ c = true ∨
      s.ccr.c = true ∧ s.a.toNat / 16 ≤ 2 ∧ s.ccr.h = false ∧ s.a.toNat % 16 ≤ 9 ∧ correction = 0x60 ∧ c = true ∨
      s.ccr.c = true ∧ s.a.toNat / 16 ≤ 2 ∧ s.ccr.h = false ∧ 10 ≤ s.a.toNat % 16 ∧ correction = 0x66 ∧ c = true ∨
      s.ccr.c = true ∧ s.a.toNat / 16 ≤ 3 ∧ s.ccr.h = true ∧ s.a.toNat % 16 ≤ 3 ∧ correction = 0x66 ∧ c = true) →
    ∃ v : Bool, exec .daa s = .next { s with
      a := s.a + correction
      ccr := { s.ccr with v := v, n := (s.a + correction).msb, z := s.a + correction == 0, c := c }
      pc := s.pc + 1, draws := s.draws + 1 }) ∧
  ∀ s : State,
    (s.ccr.c = false ∧ s.ccr.h = true ∧ 4 ≤ s.a.toNat % 16 ∨
      s.ccr.c = true ∧ s.ccr.h = false ∧ 3 ≤ s.a.toNat / 16 ∨
      s.ccr.c = true ∧ s.ccr.h = true ∧ (4 ≤ s.a.toNat / 16 ∨ 4 ≤ s.a.toNat % 16)) →
    ∃ (a : Byte) (c v : Bool),
      exec .daa s = .next { s with
        a := a, ccr := { s.ccr with v := v, n := a.msb, z := a == 0, c := c }, pc := s.pc + 1, draws := s.draws + 3 }

/-- NSA swaps the nibbles of A and changes no flag; a second one restores A (R188). -/
def Obligations.NsaMeans : Prop :=
  InherentMeans .nsa 0x62 3 (fun s => { s with a := s.a.rotateLeft 4 }) ∧
  ∀ s t u : State, exec .nsa s = .next t → exec .nsa t = .next u → u = { s with pc := s.pc + 2 }

/-! ### Control -/

/-- CLC, SEC and NOP (R200, R202, R212). -/
def Obligations.CarryAndNop : Prop :=
  InherentMeans .clc 0x98 1 (fun s => { s with ccr := { s.ccr with c := false } }) ∧
  InherentMeans .sec 0x99 1 (fun s => { s with ccr := { s.ccr with c := true } }) ∧
  InherentMeans .nop 0x9D 1 (fun s => s)

/-- PSHA, PSHH and PSHX write the register at SP, then lower SP by one. PULA, PULH and PULX raise SP by one, then load the register from
there. RTS pulls the high byte, then the low byte of PC, and raises SP by two. No flag changes (R203 to R208, R211). -/
def Obligations.StackInstructions : Prop :=
  (HasForm .psha [0x87] 2 ∧ HasForm .pshh [0x8B] 2 ∧ HasForm .pshx [0x89] 2 ∧ HasForm .pula [0x86] 2 ∧
    HasForm .pulh [0x8A] 2 ∧ HasForm .pulx [0x88] 2 ∧ HasForm .rts [0x81] 4) ∧
  ∀ s : State,
    (s.present s.sp = true →
      exec .psha s = .next { s.afterWrite s.sp s.a with sp := s.sp - 1, pc := s.pc + 1 } ∧
      exec .pshh s = .next { s.afterWrite s.sp s.h with sp := s.sp - 1, pc := s.pc + 1 } ∧
      exec .pshx s = .next { s.afterWrite s.sp s.x with sp := s.sp - 1, pc := s.pc + 1 }) ∧
    (s.present (s.sp + 1) = true →
      exec .pula s = .next { s.afterRead (s.sp + 1) with a := s.byteAt (s.sp + 1), sp := s.sp + 1, pc := s.pc + 1 } ∧
      exec .pulh s = .next { s.afterRead (s.sp + 1) with h := s.byteAt (s.sp + 1), sp := s.sp + 1, pc := s.pc + 1 } ∧
      exec .pulx s = .next { s.afterRead (s.sp + 1) with x := s.byteAt (s.sp + 1), sp := s.sp + 1, pc := s.pc + 1 }) ∧
    (s.present (s.sp + 1) = true → s.present (s.sp + 2) = true →
      exec .rts s = .next { (s.afterRead (s.sp + 1)).afterRead (s.sp + 2) with
        pc := wordOf (s.byteAt (s.sp + 1)) ((s.afterRead (s.sp + 1)).byteAt (s.sp + 2)), sp := s.sp + 2 })

/-- TAX, TXA, TSX, TXS, AIS, AIX and RSP change the register they name and no flag (R209, R217, R219 to R221, R233, R234; D13,
log 23; `rsp_keeps_high` is a parameter, log 3). -/
def Obligations.RegisterTransfers : Prop :=
  InherentMeans .tax 0x97 1 (fun s => { s with x := s.a }) ∧
  InherentMeans .txa 0x9F 1 (fun s => { s with a := s.x }) ∧
  InherentMeans .tsx 0x95 2 (fun s => { s with h := hiByte (s.sp + 1), x := loByte (s.sp + 1) }) ∧
  InherentMeans .txs 0x94 2 (fun s => { s with sp := wordOf s.h s.x - 1 }) ∧
  InherentMeans .rsp 0x9C 1 (fun s => { s with
    sp := if s.cfg.rspKeepsHigh then s.sp ||| 0x00FF else 0x00FF }) ∧
  ∀ (ii : Byte) (s : State),
    (HasForm (.ais ii) [0xA7, ii] 2 ∧ HasForm (.aix ii) [0xAF, ii] 2) ∧
    exec (.ais ii) s = .next { s with sp := s.sp + ii.signExtend 16, pc := s.pc + 2 } ∧
    exec (.aix ii) s = .next { s with
      h := hiByte (s.hx + ii.signExtend 16), x := loByte (s.hx + ii.signExtend 16), pc := s.pc + 2 }

/-- TPA delivers the flags with the parameter in bits 6 and 5; TAP loads the six flags from bits 7, 4, 3, 2, 1, 0 of A and ignores the
other two; TPA then TAP leaves the flags as they were, for every value of the parameter (R33, R216, R218). A TAP that takes I from 0
to 1 opens the window of R297, one that takes I from 1 to 0 gives the choice of R265; that this is a mask history is the model's
(log 17). -/
def Obligations.FlagTransfers : Prop :=
  (HasForm .tpa [0x85] 1 ∧ HasForm .tap [0x84] 2) ∧
  (∀ s : State,
    exec .tpa s = .next { s with
      a := BitVec.ofBool s.ccr.v ++ s.cfg.ccrBits65 ++ BitVec.ofBool s.ccr.h ++ BitVec.ofBool s.ccr.i ++
        BitVec.ofBool s.ccr.n ++ BitVec.ofBool s.ccr.z ++ BitVec.ofBool s.ccr.c
      pc := s.pc + 1 }) ∧
  (∀ s : State, exec .tap s = .next { s with
      ccr := ⟨s.a.getLsbD 7, s.a.getLsbD 4, s.a.getLsbD 3, s.a.getLsbD 2, s.a.getLsbD 1, s.a.getLsbD 0⟩
      mask := if !s.ccr.i && s.a.getLsbD 3 then .justSet else if s.ccr.i && !s.a.getLsbD 3 then .justCleared else .none
      pc := s.pc + 1 }) ∧
  (∀ s t u : State, exec .tpa s = .next t → exec .tap t = .next u → u.ccr = s.ccr)

/-- CLI and SEI write I alone; STOP and WAIT clear I, leave PC at the next instruction and every other register, the flags and memory as
they were, and change the run state; STOP enables the /IRQ pin interrupt (R201, R213, R214, R222, R275, R276). The mask history CLI
and SEI leave is the model's record of the window of R265 (log 17), and that STOP's enabling is a bit is the model's (log 15). -/
def Obligations.MaskAndLowPower : Prop :=
  InherentMeans .cli 0x9A 2 (fun s => { s with ccr := { s.ccr with i := false }, mask := .justCleared }) ∧
  InherentMeans .sei 0x9B 2 (fun s => { s with
    ccr := { s.ccr with i := true }, mask := if s.ccr.i then .none else .justSet }) ∧
  InherentMeans .stop 0x8E 1 (fun s => { s with ccr := { s.ccr with i := false }, irqEnable := true, run := .stopped }) ∧
  InherentMeans .wait 0x8F 1 (fun s => { s with ccr := { s.ccr with i := false }, run := .waiting })

/-! ### Register/memory -/

/-- ADD and ADC, in all forms: A is the sum, C its carry out of bit 7, H out of bit 3 (R13, R231, R232). V is the signed overflow
(D11, PRESUMED, log 20). -/
def Obligations.AddMeans : Prop :=
  (SrcForms .add 0xB ∧ SrcForms .adc 0x9) ∧
  SrcMeans .add (fun s m => { s with a := s.a + m, ccr := sumFlags s.a m false s.ccr }) ∧
  SrcMeans .adc (fun s m => { s with
    a := s.a + m + (BitVec.ofBool s.ccr.c).zeroExtend 8, ccr := sumFlags s.a m s.ccr.c s.ccr })

/-- SUB, SBC, CMP and CPX, in all forms: C is the borrow, N and Z come from the difference; SUB and SBC write A, CMP and CPX write no
register; I is unchanged (R14, R237, R238, R245, R248). V is the signed overflow (D11, PRESUMED, log 20); that H is unchanged
is D12 (log 23). -/
def Obligations.SubtractMeans : Prop :=
  (SrcForms .sub 0x0 ∧ SrcForms .cmp 0x1 ∧ SrcForms .sbc 0x2 ∧ SrcForms .cpx 0x3) ∧
  SrcMeans .sub (fun s m => { s with a := s.a - m, ccr := differenceFlags s.a m false s.ccr }) ∧
  SrcMeans .sbc (fun s m => { s with
    a := s.a - m - (BitVec.ofBool s.ccr.c).zeroExtend 8, ccr := differenceFlags s.a m s.ccr.c s.ccr }) ∧
  SrcMeans .cmp (fun s m => { s with ccr := differenceFlags s.a m false s.ccr }) ∧
  SrcMeans .cpx (fun s m => { s with ccr := differenceFlags s.x m false s.ccr })

/-- AND, ORA and EOR, in all forms, combine A with the operand, BIT only tests; V cleared, N and Z from the result, C unchanged (R235,
R236, R239, R244). -/
def Obligations.LogicMeans : Prop :=
  (SrcForms .and 0x4 ∧ SrcForms .bit 0x5 ∧ SrcForms .eor 0x8 ∧ SrcForms .ora 0xA) ∧
  SrcMeans .and (fun s m => { s with a := s.a &&& m, ccr := valueFlags (s.a &&& m) s.ccr }) ∧
  SrcMeans .bit (fun s m => { s with ccr := valueFlags (s.a &&& m) s.ccr }) ∧
  SrcMeans .eor (fun s m => { s with a := s.a ^^^ m, ccr := valueFlags (s.a ^^^ m) s.ccr }) ∧
  SrcMeans .ora (fun s m => { s with a := s.a ||| m, ccr := valueFlags (s.a ||| m) s.ccr })

/-- LDA and LDX, in all forms, load the operand, from the old H:X in the indexed forms; V cleared, N and Z from it (R242, R243; the old
H:X is D26, log 27). -/
def Obligations.LoadMeans : Prop :=
  (SrcForms .lda 0x6 ∧ SrcForms .ldx 0xE) ∧
  SrcMeans .lda (fun s m => { s with a := m, ccr := valueFlags m s.ccr }) ∧
  SrcMeans .ldx (fun s m => { s with x := m, ccr := valueFlags m s.ccr })

/-- STA and STX, in all forms, write the register and take V, N and Z from the value stored, also where the location does not keep it
(R246, R247). -/
def Obligations.StoreMeans : Prop :=
  (StoreForms .sta 0x7 ∧ StoreForms .stx 0xF) ∧
  ∀ (ea : Ea) (s : State), s.present (s.ea ea) = true →
    exec (.sta ea) s = .next { s.afterWrite (s.ea ea) s.a with
      ccr := valueFlags s.a s.ccr, pc := s.pc + BitVec.ofNat 16 ea.length } ∧
    exec (.stx ea) s = .next { s.afterWrite (s.ea ea) s.x with
      ccr := valueFlags s.x s.ccr, pc := s.pc + BitVec.ofNat 16 ea.length }

/-! ### Exceptions, interrupts and reset -/

/-- SWI, whatever I is: five pushes, then I set, then PC from the vector, read after the pushes; the other flags, A, X and H unchanged
(R215). On a RAM stack memory then holds the frame of R267 and is otherwise unchanged. -/
def Obligations.SwiEntry : Prop :=
  HasForm .swi [0x83] 9 ∧
  (∀ s t : State, (∀ k, k < 5 → s.present (s.sp - BitVec.ofNat 16 k) = true) →
    s.present 0xFFFC = true → s.present 0xFFFD = true →
    t = ((((s.afterWrite s.sp (loByte (s.pc + 1))).afterWrite (s.sp - 1) (hiByte (s.pc + 1))).afterWrite (s.sp - 2) s.x).afterWrite
      (s.sp - 3) s.a).afterWrite (s.sp - 4) (BitVec.ofBool s.ccr.v ++ s.cfg.ccrBits65 ++ BitVec.ofBool s.ccr.h ++
        BitVec.ofBool s.ccr.i ++ BitVec.ofBool s.ccr.n ++ BitVec.ofBool s.ccr.z ++ BitVec.ofBool s.ccr.c) →
    exec .swi s = .next { (t.afterRead 0xFFFC).afterRead 0xFFFD with
      sp := s.sp - 5, ccr := { s.ccr with i := true }, run := .running
      pc := wordOf (t.byteAt 0xFFFC) ((t.afterRead 0xFFFC).byteAt 0xFFFD) }) ∧
  ∀ s t : State, s.mem.wf = true → (∀ k, k < 5 → s.kind (s.sp - BitVec.ofNat 16 k) = .ram) → exec .swi s = .next t →
    t.peek s.sp = loByte (s.pc + 1) ∧ t.peek (s.sp - 1) = hiByte (s.pc + 1) ∧ t.peek (s.sp - 2) = s.x ∧
    t.peek (s.sp - 3) = s.a ∧
    t.peek (s.sp - 4) = BitVec.ofBool s.ccr.v ++ s.cfg.ccrBits65 ++ BitVec.ofBool s.ccr.h ++ BitVec.ofBool s.ccr.i ++
      BitVec.ofBool s.ccr.n ++ BitVec.ofBool s.ccr.z ++ BitVec.ofBool s.ccr.c ∧ t.sp = s.sp - 5 ∧
    ∀ addr, (∀ k, k < 5 → addr ≠ s.sp - BitVec.ofNat 16 k) → t.peek addr = s.peek addr

/-- A recognised hardware interrupt is taken at the boundary, before the instruction at PC: the same frame with the current PC, then
I set and PC from the source's vector (R265, R266, R267, R268, R272). That the sequence is SWI's is D6 (log 16). Its accesses are the
five pushes and the reads of the vector, as listed (R268, log 25). -/
def Obligations.InterruptEntry : Prop :=
  (∀ (s : State) (src : IntSource), s.run = .running → s.env.reset = false → s.env.cut = none → s.recognised = some src →
    s.mem.wf = true →
    (∀ k, k < 5 → s.kind (s.sp - BitVec.ofNat 16 k) = .ram) → s.memoryAt src.vector → s.memoryAt (src.vector + 1) →
    ∃ t : State, step s = .next t.tick ∧
      t.peek s.sp = loByte s.pc ∧ t.peek (s.sp - 1) = hiByte s.pc ∧ t.peek (s.sp - 2) = s.x ∧
      t.peek (s.sp - 3) = s.a ∧ t.peek (s.sp - 4) = s.ccr.toByte s.cfg.ccrBits65 ∧
      (∀ addr, (∀ k, k < 5 → addr ≠ s.sp - BitVec.ofNat 16 k) → t.peek addr = s.peek addr) ∧
      t = { s with
        mem := t.mem, sp := s.sp - 5, ccr := { s.ccr with i := true }
        pc := wordOf (t.peek src.vector) (t.peek (src.vector + 1)), run := .running, mask := .none }) ∧
  ∀ (s t : State) (ret vector : Word), s.takeException ret vector = .next t →
    ∃ u, s.replay (s.entryAccesses ret vector) .next = .next u ∧ t.mem = u.mem ∧ t.devOut = u.devOut ∧ t.draws = u.draws

/-- RTI pulls CCR, A, X, PCH and PCL, in this order, and raises SP by five; H is not restored and bits 6 and 5 of the pulled CCR are
dropped (R210, R270, R269). One that takes I from 1 to 0 gives the choice of R265; that this is a mask history is the model's
(log 17). -/
def Obligations.RtiRestores : Prop :=
  HasForm .rti [0x80] 7 ∧
  ∀ s : State, (∀ k, 1 ≤ k → k ≤ 5 → s.memoryAt (s.sp + BitVec.ofNat 16 k)) →
    exec .rti s = .next { s with
      ccr := ⟨(s.peek (s.sp + 1)).getLsbD 7, (s.peek (s.sp + 1)).getLsbD 4, (s.peek (s.sp + 1)).getLsbD 3,
        (s.peek (s.sp + 1)).getLsbD 2, (s.peek (s.sp + 1)).getLsbD 1, (s.peek (s.sp + 1)).getLsbD 0⟩
      a := s.peek (s.sp + 2), x := s.peek (s.sp + 3), pc := wordOf (s.peek (s.sp + 4)) (s.peek (s.sp + 5))
      sp := s.sp + 5, mask := if s.ccr.i && !(s.peek (s.sp + 1)).getLsbD 3 then .justCleared else .none }

/-- SWI and then RTI, on a RAM stack: execution resumes after the SWI with every register and flag as before it, for every value of
the parameter that fills CCR bits 6 and 5 (R210, R215, R270); the frame stays in memory. -/
def Obligations.SwiThenRti : Prop :=
  ∀ s t : State, s.mem.wf = true → (∀ k, k < 5 → s.kind (s.sp - BitVec.ofNat 16 k) = .ram) → exec .swi s = .next t →
    ∃ u, exec .rti t = .next u ∧ u.pc = s.pc + 1 ∧ u.sp = s.sp ∧ u.a = s.a ∧ u.h = s.h ∧ u.x = s.x ∧ u.ccr = s.ccr

/-- When a source is recognised at a boundary in the running state. With no instruction just before that set or cleared I: none while I
is 1, else the best of the pending ones. After one that set I (I now 1): none, or the best of the pending ones if the environment
chooses the window. After one that cleared I: the same choice. None pending, none recognised (R264, R265, R296, R297). The mask
history and the choice bit are the model's (log 17), as is what the best source is (log 14). -/
def Obligations.Masking : Prop :=
  ∀ s : State,
    (s.mask = .none → s.ccr.i = true → s.recognised = none) ∧
    (s.mask = .none → s.ccr.i = false → s.recognised = bestSource s.pendingSources) ∧
    (s.mask = .justSet → s.ccr.i = true → s.env.choice = false → s.recognised = none) ∧
    (s.mask = .justSet → s.env.choice = true → s.recognised = bestSource s.pendingSources) ∧
    (s.mask = .justCleared → s.ccr.i = false → s.env.choice = false → s.recognised = none) ∧
    (s.mask = .justCleared → s.ccr.i = false → s.env.choice = true → s.recognised = bestSource s.pendingSources) ∧
    (s.pendingSources = [] → s.recognised = none)

/-- The source taken is pending and has the best rank of those pending; there is one whenever any is pending. Pending are exactly the
/IRQ pin, if it is at 0 and its interrupt enabled, and the on-chip sources whose name the environment requests (R263, R272). That a
lower number is the better rank, and that a source is a record with a name, is the model's (log 14). -/
def Obligations.Priority : Prop :=
  (∀ (pending : List IntSource) (src : IntSource), bestSource pending = some src →
    src ∈ pending ∧ ∀ other ∈ pending, src.rank ≤ other.rank) ∧
  (∀ pending : List IntSource, pending ≠ [] → ∃ src, bestSource pending = some src) ∧
  (∀ (s : State) (src : IntSource), src ∈ s.pendingSources ↔
    src = irqSource s.cfg ∧ s.env.irqPin = false ∧ s.irqEnable = true ∨
      src ∈ s.cfg.sources ∧ src.name ∈ s.env.requests)

/-- The waiting state: with no reset and nothing pending nothing changes but the environment; a pending source is taken at once, with
the address after the WAIT as return address (R276, R277). A reset inside that entry leaves the accesses made by then (R290, log
19). -/
def Obligations.WaitingState : Prop :=
  ∀ s : State, s.run = .waiting → s.env.reset = false →
    (s.pendingSources = [] → step s = .next s.tick) ∧
    (∀ src, bestSource s.pendingSources = some src → s.env.cut = none →
      step s = mapNext State.tick (s.takeException s.pc src.vector)) ∧
    (∀ src n, bestSource s.pendingSources = some src → s.env.cut = some n →
      step s = mapNext State.tick (s.replay ((s.entryAccesses s.pc src.vector).take n) State.takeReset))

/-- The stopped state, with an environment that holds its inputs: while both pins are high nothing changes; with /IRQ low, or with
/RESET low, the machine is 4096 steps later at the end of the recovery delay, with its registers and memory unchanged, and the next
step takes the /IRQ interrupt with the address after the STOP, or the reset (R275, R277, R303; one step per cycle is D28, log 18). A
reset inside that entry leaves the accesses made by then (R290, log 19). -/
def Obligations.StopRecovery : Prop :=
  ∀ s : State, s.run = .stopped → s.future = [] →
    (s.env.reset = false → s.env.irqPin = true → step s = .next s) ∧
    (s.env.reset = false → s.env.irqPin = false →
      Host.Core.run Sys2Proof.core 4096 s = .next { s with run := .recovering 0 false } ∧
      (s.env.cut = none → step { s with run := .recovering 0 false } =
        { s with run := .recovering 0 false }.takeException s.pc s.cfg.irqVector) ∧
      ∀ n, s.env.cut = some n → step { s with run := .recovering 0 false } =
        { s with run := .recovering 0 false }.replay ((s.entryAccesses s.pc s.cfg.irqVector).take n) State.takeReset) ∧
    (s.env.reset = true →
      Host.Core.run Sys2Proof.core 4096 s = .next { s with run := .recovering 0 true } ∧
      step { s with run := .recovering 0 true } = { s with run := .recovering 0 true }.takeReset)

/-- A reset taken in the running or the waiting state, whatever I is: SP, H and I from the parameter, PC from the reset vector, the
run state running, memory and what the environment holds in store unchanged; A, X and the other flags are some values (R290, R291,
R292, R37; U5, log 5); that the enable of the /IRQ pin takes a parameter's value and the mask history is forgotten is the model's
(logs 15, 17). A reset that strikes inside the instruction at PC, or inside an interrupt entry, after some of its data accesses: those
have happened, in their order, the rest of it has not, and the reset sequence follows (R290; D33, log 19); bytes that spell no
instruction have made none (log 19). -/
def Obligations.ResetSequence : Prop :=
  (∀ s : State, s.run = .running ∨ s.run = .waiting → s.env.reset = true →
    s.memoryAt s.cfg.resetVector → s.memoryAt (s.cfg.resetVector + 1) →
    ∃ t : State, step s = .next t.tick ∧ t.sp = s.cfg.resetSp ∧ t.h = s.cfg.resetH ∧ t.ccr.i = s.cfg.resetI ∧
      t.pc = wordOf (s.peek s.cfg.resetVector) (s.peek (s.cfg.resetVector + 1)) ∧ t.run = .running ∧ t.mem = s.mem ∧
      t.irqEnable = s.cfg.resetIrqEnable ∧ t.mask = .none ∧
      t.env = s.env ∧ t.future = s.future ∧ t.devOut = s.devOut ∧ t.cfg = s.cfg) ∧
  ∀ (s : State) (n : Nat), s.run = .running → s.env.reset = false → s.env.cut = some n →
    (∀ src, s.recognised = some src →
      step s = mapNext State.tick ((s.setMask .none).replay ((s.entryAccesses s.pc src.vector).take n) State.takeReset)) ∧
    (∀ i, s.recognised = none → decode s.fetchBytes = .ok i →
      step s = mapNext State.tick ((s.setMask .none).replay ((s.accesses i).take n) State.takeReset)) ∧
    (∀ e, s.recognised = none → decode s.fetchBytes = .error e → step s = mapNext State.tick (s.setMask .none).takeReset)

/-- The state the model starts in has the values of R37, with the defaults that R37 marks as general knowledge (PRESUMED, log 4). Its
memory lists nothing and an address nothing lists reads as the model's choice $00 (logs 6, 7); A, X, V, H, N, Z and C are the model's
choice and not stated (log 5). -/
def Obligations.ResetState : Prop :=
  State.reset.sp = 0x00FF ∧ State.reset.h = 0x00 ∧ State.reset.ccr.i = true ∧ State.reset.run = .running ∧
  State.reset.pc = State.reset.peek 0xFFFE ++ State.reset.peek 0xFFFF ∧ State.reset.cfg.resetVector = 0xFFFE ∧
  State.reset.mem = [] ∧ ∀ addr, State.reset.peek addr = 0x00
end

