-- ==== Sys2Proof/Laws/State.lean ====
section
/-! SUPPORT. What each named update of the state does to each field, and to the readings of the state that depend on one
field only. -/

namespace Sys2Proof.Machine

/-! ### `State.setA` -/

@[simp] theorem State.setA_a (s : State) (v : Byte) : (s.setA v).a = v := rfl
@[simp] theorem State.setA_h (s : State) (v : Byte) : (s.setA v).h = s.h := rfl
@[simp] theorem State.setA_x (s : State) (v : Byte) : (s.setA v).x = s.x := rfl
@[simp] theorem State.setA_sp (s : State) (v : Byte) : (s.setA v).sp = s.sp := rfl
@[simp] theorem State.setA_pc (s : State) (v : Byte) : (s.setA v).pc = s.pc := rfl
@[simp] theorem State.setA_ccr (s : State) (v : Byte) : (s.setA v).ccr = s.ccr := rfl
@[simp] theorem State.setA_run (s : State) (v : Byte) : (s.setA v).run = s.run := rfl
@[simp] theorem State.setA_mask (s : State) (v : Byte) : (s.setA v).mask = s.mask := rfl
@[simp] theorem State.setA_irqEnable (s : State) (v : Byte) : (s.setA v).irqEnable = s.irqEnable := rfl
@[simp] theorem State.setA_mem (s : State) (v : Byte) : (s.setA v).mem = s.mem := rfl
@[simp] theorem State.setA_env (s : State) (v : Byte) : (s.setA v).env = s.env := rfl
@[simp] theorem State.setA_future (s : State) (v : Byte) : (s.setA v).future = s.future := rfl
@[simp] theorem State.setA_draws (s : State) (v : Byte) : (s.setA v).draws = s.draws := rfl
@[simp] theorem State.setA_devOut (s : State) (v : Byte) : (s.setA v).devOut = s.devOut := rfl
@[simp] theorem State.setA_cfg (s : State) (v : Byte) : (s.setA v).cfg = s.cfg := rfl
@[simp] theorem State.setA_hx (s : State) (v : Byte) : (s.setA v).hx = s.hx := rfl
@[simp] theorem State.setA_kind (s : State) (v : Byte) (a : Word) : (s.setA v).kind a = s.kind a := rfl
@[simp] theorem State.setA_present (s : State) (v : Byte) (a : Word) : (s.setA v).present a = s.present a := rfl
@[simp] theorem State.setA_peek (s : State) (v : Byte) (a : Word) : (s.setA v).peek a = s.peek a := rfl
@[simp] theorem State.setA_byteAt (s : State) (v : Byte) (a : Word) : (s.setA v).byteAt a = s.byteAt a := rfl
@[simp] theorem State.setA_nextPc (s : State) (v : Byte) (len : Nat) : (s.setA v).nextPc len = s.nextPc len := rfl

/-! ### `State.setH` -/

@[simp] theorem State.setH_a (s : State) (v : Byte) : (s.setH v).a = s.a := rfl
@[simp] theorem State.setH_h (s : State) (v : Byte) : (s.setH v).h = v := rfl
@[simp] theorem State.setH_x (s : State) (v : Byte) : (s.setH v).x = s.x := rfl
@[simp] theorem State.setH_sp (s : State) (v : Byte) : (s.setH v).sp = s.sp := rfl
@[simp] theorem State.setH_pc (s : State) (v : Byte) : (s.setH v).pc = s.pc := rfl
@[simp] theorem State.setH_ccr (s : State) (v : Byte) : (s.setH v).ccr = s.ccr := rfl
@[simp] theorem State.setH_run (s : State) (v : Byte) : (s.setH v).run = s.run := rfl
@[simp] theorem State.setH_mask (s : State) (v : Byte) : (s.setH v).mask = s.mask := rfl
@[simp] theorem State.setH_irqEnable (s : State) (v : Byte) : (s.setH v).irqEnable = s.irqEnable := rfl
@[simp] theorem State.setH_mem (s : State) (v : Byte) : (s.setH v).mem = s.mem := rfl
@[simp] theorem State.setH_env (s : State) (v : Byte) : (s.setH v).env = s.env := rfl
@[simp] theorem State.setH_future (s : State) (v : Byte) : (s.setH v).future = s.future := rfl
@[simp] theorem State.setH_draws (s : State) (v : Byte) : (s.setH v).draws = s.draws := rfl
@[simp] theorem State.setH_devOut (s : State) (v : Byte) : (s.setH v).devOut = s.devOut := rfl
@[simp] theorem State.setH_cfg (s : State) (v : Byte) : (s.setH v).cfg = s.cfg := rfl
@[simp] theorem State.setH_kind (s : State) (v : Byte) (a : Word) : (s.setH v).kind a = s.kind a := rfl
@[simp] theorem State.setH_present (s : State) (v : Byte) (a : Word) : (s.setH v).present a = s.present a := rfl
@[simp] theorem State.setH_peek (s : State) (v : Byte) (a : Word) : (s.setH v).peek a = s.peek a := rfl
@[simp] theorem State.setH_byteAt (s : State) (v : Byte) (a : Word) : (s.setH v).byteAt a = s.byteAt a := rfl
@[simp] theorem State.setH_nextPc (s : State) (v : Byte) (len : Nat) : (s.setH v).nextPc len = s.nextPc len := rfl

/-! ### `State.setX` -/

@[simp] theorem State.setX_a (s : State) (v : Byte) : (s.setX v).a = s.a := rfl
@[simp] theorem State.setX_h (s : State) (v : Byte) : (s.setX v).h = s.h := rfl
@[simp] theorem State.setX_x (s : State) (v : Byte) : (s.setX v).x = v := rfl
@[simp] theorem State.setX_sp (s : State) (v : Byte) : (s.setX v).sp = s.sp := rfl
@[simp] theorem State.setX_pc (s : State) (v : Byte) : (s.setX v).pc = s.pc := rfl
@[simp] theorem State.setX_ccr (s : State) (v : Byte) : (s.setX v).ccr = s.ccr := rfl
@[simp] theorem State.setX_run (s : State) (v : Byte) : (s.setX v).run = s.run := rfl
@[simp] theorem State.setX_mask (s : State) (v : Byte) : (s.setX v).mask = s.mask := rfl
@[simp] theorem State.setX_irqEnable (s : State) (v : Byte) : (s.setX v).irqEnable = s.irqEnable := rfl
@[simp] theorem State.setX_mem (s : State) (v : Byte) : (s.setX v).mem = s.mem := rfl
@[simp] theorem State.setX_env (s : State) (v : Byte) : (s.setX v).env = s.env := rfl
@[simp] theorem State.setX_future (s : State) (v : Byte) : (s.setX v).future = s.future := rfl
@[simp] theorem State.setX_draws (s : State) (v : Byte) : (s.setX v).draws = s.draws := rfl
@[simp] theorem State.setX_devOut (s : State) (v : Byte) : (s.setX v).devOut = s.devOut := rfl
@[simp] theorem State.setX_cfg (s : State) (v : Byte) : (s.setX v).cfg = s.cfg := rfl
@[simp] theorem State.setX_kind (s : State) (v : Byte) (a : Word) : (s.setX v).kind a = s.kind a := rfl
@[simp] theorem State.setX_present (s : State) (v : Byte) (a : Word) : (s.setX v).present a = s.present a := rfl
@[simp] theorem State.setX_peek (s : State) (v : Byte) (a : Word) : (s.setX v).peek a = s.peek a := rfl
@[simp] theorem State.setX_byteAt (s : State) (v : Byte) (a : Word) : (s.setX v).byteAt a = s.byteAt a := rfl
@[simp] theorem State.setX_nextPc (s : State) (v : Byte) (len : Nat) : (s.setX v).nextPc len = s.nextPc len := rfl

/-! ### `State.setHx` -/

@[simp] theorem State.setHx_a (s : State) (v : Word) : (s.setHx v).a = s.a := rfl
@[simp] theorem State.setHx_h (s : State) (v : Word) : (s.setHx v).h = hiByte v := rfl
@[simp] theorem State.setHx_x (s : State) (v : Word) : (s.setHx v).x = loByte v := rfl
@[simp] theorem State.setHx_sp (s : State) (v : Word) : (s.setHx v).sp = s.sp := rfl
@[simp] theorem State.setHx_pc (s : State) (v : Word) : (s.setHx v).pc = s.pc := rfl
@[simp] theorem State.setHx_ccr (s : State) (v : Word) : (s.setHx v).ccr = s.ccr := rfl
@[simp] theorem State.setHx_run (s : State) (v : Word) : (s.setHx v).run = s.run := rfl
@[simp] theorem State.setHx_mask (s : State) (v : Word) : (s.setHx v).mask = s.mask := rfl
@[simp] theorem State.setHx_irqEnable (s : State) (v : Word) : (s.setHx v).irqEnable = s.irqEnable := rfl
@[simp] theorem State.setHx_mem (s : State) (v : Word) : (s.setHx v).mem = s.mem := rfl
@[simp] theorem State.setHx_env (s : State) (v : Word) : (s.setHx v).env = s.env := rfl
@[simp] theorem State.setHx_future (s : State) (v : Word) : (s.setHx v).future = s.future := rfl
@[simp] theorem State.setHx_draws (s : State) (v : Word) : (s.setHx v).draws = s.draws := rfl
@[simp] theorem State.setHx_devOut (s : State) (v : Word) : (s.setHx v).devOut = s.devOut := rfl
@[simp] theorem State.setHx_cfg (s : State) (v : Word) : (s.setHx v).cfg = s.cfg := rfl
@[simp] theorem State.setHx_kind (s : State) (v : Word) (a : Word) : (s.setHx v).kind a = s.kind a := rfl
@[simp] theorem State.setHx_present (s : State) (v : Word) (a : Word) : (s.setHx v).present a = s.present a := rfl
@[simp] theorem State.setHx_peek (s : State) (v : Word) (a : Word) : (s.setHx v).peek a = s.peek a := rfl
@[simp] theorem State.setHx_byteAt (s : State) (v : Word) (a : Word) : (s.setHx v).byteAt a = s.byteAt a := rfl
@[simp] theorem State.setHx_nextPc (s : State) (v : Word) (len : Nat) : (s.setHx v).nextPc len = s.nextPc len := rfl

/-! ### `State.setSp` -/

@[simp] theorem State.setSp_a (s : State) (v : Word) : (s.setSp v).a = s.a := rfl
@[simp] theorem State.setSp_h (s : State) (v : Word) : (s.setSp v).h = s.h := rfl
@[simp] theorem State.setSp_x (s : State) (v : Word) : (s.setSp v).x = s.x := rfl
@[simp] theorem State.setSp_sp (s : State) (v : Word) : (s.setSp v).sp = v := rfl
@[simp] theorem State.setSp_pc (s : State) (v : Word) : (s.setSp v).pc = s.pc := rfl
@[simp] theorem State.setSp_ccr (s : State) (v : Word) : (s.setSp v).ccr = s.ccr := rfl
@[simp] theorem State.setSp_run (s : State) (v : Word) : (s.setSp v).run = s.run := rfl
@[simp] theorem State.setSp_mask (s : State) (v : Word) : (s.setSp v).mask = s.mask := rfl
@[simp] theorem State.setSp_irqEnable (s : State) (v : Word) : (s.setSp v).irqEnable = s.irqEnable := rfl
@[simp] theorem State.setSp_mem (s : State) (v : Word) : (s.setSp v).mem = s.mem := rfl
@[simp] theorem State.setSp_env (s : State) (v : Word) : (s.setSp v).env = s.env := rfl
@[simp] theorem State.setSp_future (s : State) (v : Word) : (s.setSp v).future = s.future := rfl
@[simp] theorem State.setSp_draws (s : State) (v : Word) : (s.setSp v).draws = s.draws := rfl
@[simp] theorem State.setSp_devOut (s : State) (v : Word) : (s.setSp v).devOut = s.devOut := rfl
@[simp] theorem State.setSp_cfg (s : State) (v : Word) : (s.setSp v).cfg = s.cfg := rfl
@[simp] theorem State.setSp_hx (s : State) (v : Word) : (s.setSp v).hx = s.hx := rfl
@[simp] theorem State.setSp_kind (s : State) (v : Word) (a : Word) : (s.setSp v).kind a = s.kind a := rfl
@[simp] theorem State.setSp_present (s : State) (v : Word) (a : Word) : (s.setSp v).present a = s.present a := rfl
@[simp] theorem State.setSp_peek (s : State) (v : Word) (a : Word) : (s.setSp v).peek a = s.peek a := rfl
@[simp] theorem State.setSp_byteAt (s : State) (v : Word) (a : Word) : (s.setSp v).byteAt a = s.byteAt a := rfl
@[simp] theorem State.setSp_nextPc (s : State) (v : Word) (len : Nat) : (s.setSp v).nextPc len = s.nextPc len := rfl

/-! ### `State.setPc` -/

@[simp] theorem State.setPc_a (s : State) (v : Word) : (s.setPc v).a = s.a := rfl
@[simp] theorem State.setPc_h (s : State) (v : Word) : (s.setPc v).h = s.h := rfl
@[simp] theorem State.setPc_x (s : State) (v : Word) : (s.setPc v).x = s.x := rfl
@[simp] theorem State.setPc_sp (s : State) (v : Word) : (s.setPc v).sp = s.sp := rfl
@[simp] theorem State.setPc_pc (s : State) (v : Word) : (s.setPc v).pc = v := rfl
@[simp] theorem State.setPc_ccr (s : State) (v : Word) : (s.setPc v).ccr = s.ccr := rfl
@[simp] theorem State.setPc_run (s : State) (v : Word) : (s.setPc v).run = s.run := rfl
@[simp] theorem State.setPc_mask (s : State) (v : Word) : (s.setPc v).mask = s.mask := rfl
@[simp] theorem State.setPc_irqEnable (s : State) (v : Word) : (s.setPc v).irqEnable = s.irqEnable := rfl
@[simp] theorem State.setPc_mem (s : State) (v : Word) : (s.setPc v).mem = s.mem := rfl
@[simp] theorem State.setPc_env (s : State) (v : Word) : (s.setPc v).env = s.env := rfl
@[simp] theorem State.setPc_future (s : State) (v : Word) : (s.setPc v).future = s.future := rfl
@[simp] theorem State.setPc_draws (s : State) (v : Word) : (s.setPc v).draws = s.draws := rfl
@[simp] theorem State.setPc_devOut (s : State) (v : Word) : (s.setPc v).devOut = s.devOut := rfl
@[simp] theorem State.setPc_cfg (s : State) (v : Word) : (s.setPc v).cfg = s.cfg := rfl
@[simp] theorem State.setPc_hx (s : State) (v : Word) : (s.setPc v).hx = s.hx := rfl
@[simp] theorem State.setPc_kind (s : State) (v : Word) (a : Word) : (s.setPc v).kind a = s.kind a := rfl
@[simp] theorem State.setPc_present (s : State) (v : Word) (a : Word) : (s.setPc v).present a = s.present a := rfl
@[simp] theorem State.setPc_peek (s : State) (v : Word) (a : Word) : (s.setPc v).peek a = s.peek a := rfl
@[simp] theorem State.setPc_byteAt (s : State) (v : Word) (a : Word) : (s.setPc v).byteAt a = s.byteAt a := rfl

/-! ### `State.setCcr` -/

@[simp] theorem State.setCcr_a (s : State) (f : Flags) : (s.setCcr f).a = s.a := rfl
@[simp] theorem State.setCcr_h (s : State) (f : Flags) : (s.setCcr f).h = s.h := rfl
@[simp] theorem State.setCcr_x (s : State) (f : Flags) : (s.setCcr f).x = s.x := rfl
@[simp] theorem State.setCcr_sp (s : State) (f : Flags) : (s.setCcr f).sp = s.sp := rfl
@[simp] theorem State.setCcr_pc (s : State) (f : Flags) : (s.setCcr f).pc = s.pc := rfl
@[simp] theorem State.setCcr_ccr (s : State) (f : Flags) : (s.setCcr f).ccr = f := rfl
@[simp] theorem State.setCcr_run (s : State) (f : Flags) : (s.setCcr f).run = s.run := rfl
@[simp] theorem State.setCcr_mask (s : State) (f : Flags) : (s.setCcr f).mask = s.mask := rfl
@[simp] theorem State.setCcr_irqEnable (s : State) (f : Flags) : (s.setCcr f).irqEnable = s.irqEnable := rfl
@[simp] theorem State.setCcr_mem (s : State) (f : Flags) : (s.setCcr f).mem = s.mem := rfl
@[simp] theorem State.setCcr_env (s : State) (f : Flags) : (s.setCcr f).env = s.env := rfl
@[simp] theorem State.setCcr_future (s : State) (f : Flags) : (s.setCcr f).future = s.future := rfl
@[simp] theorem State.setCcr_draws (s : State) (f : Flags) : (s.setCcr f).draws = s.draws := rfl
@[simp] theorem State.setCcr_devOut (s : State) (f : Flags) : (s.setCcr f).devOut = s.devOut := rfl
@[simp] theorem State.setCcr_cfg (s : State) (f : Flags) : (s.setCcr f).cfg = s.cfg := rfl
@[simp] theorem State.setCcr_hx (s : State) (f : Flags) : (s.setCcr f).hx = s.hx := rfl
@[simp] theorem State.setCcr_kind (s : State) (f : Flags) (a : Word) : (s.setCcr f).kind a = s.kind a := rfl
@[simp] theorem State.setCcr_present (s : State) (f : Flags) (a : Word) : (s.setCcr f).present a = s.present a := rfl
@[simp] theorem State.setCcr_peek (s : State) (f : Flags) (a : Word) : (s.setCcr f).peek a = s.peek a := rfl
@[simp] theorem State.setCcr_byteAt (s : State) (f : Flags) (a : Word) : (s.setCcr f).byteAt a = s.byteAt a := rfl
@[simp] theorem State.setCcr_nextPc (s : State) (f : Flags) (len : Nat) : (s.setCcr f).nextPc len = s.nextPc len := rfl

/-! ### `State.setRun` -/

@[simp] theorem State.setRun_a (s : State) (r : RunState) : (s.setRun r).a = s.a := rfl
@[simp] theorem State.setRun_h (s : State) (r : RunState) : (s.setRun r).h = s.h := rfl
@[simp] theorem State.setRun_x (s : State) (r : RunState) : (s.setRun r).x = s.x := rfl
@[simp] theorem State.setRun_sp (s : State) (r : RunState) : (s.setRun r).sp = s.sp := rfl
@[simp] theorem State.setRun_pc (s : State) (r : RunState) : (s.setRun r).pc = s.pc := rfl
@[simp] theorem State.setRun_ccr (s : State) (r : RunState) : (s.setRun r).ccr = s.ccr := rfl
@[simp] theorem State.setRun_run (s : State) (r : RunState) : (s.setRun r).run = r := rfl
@[simp] theorem State.setRun_mask (s : State) (r : RunState) : (s.setRun r).mask = s.mask := rfl
@[simp] theorem State.setRun_irqEnable (s : State) (r : RunState) : (s.setRun r).irqEnable = s.irqEnable := rfl
@[simp] theorem State.setRun_mem (s : State) (r : RunState) : (s.setRun r).mem = s.mem := rfl
@[simp] theorem State.setRun_env (s : State) (r : RunState) : (s.setRun r).env = s.env := rfl
@[simp] theorem State.setRun_future (s : State) (r : RunState) : (s.setRun r).future = s.future := rfl
@[simp] theorem State.setRun_draws (s : State) (r : RunState) : (s.setRun r).draws = s.draws := rfl
@[simp] theorem State.setRun_devOut (s : State) (r : RunState) : (s.setRun r).devOut = s.devOut := rfl
@[simp] theorem State.setRun_cfg (s : State) (r : RunState) : (s.setRun r).cfg = s.cfg := rfl
@[simp] theorem State.setRun_hx (s : State) (r : RunState) : (s.setRun r).hx = s.hx := rfl
@[simp] theorem State.setRun_kind (s : State) (r : RunState) (a : Word) : (s.setRun r).kind a = s.kind a := rfl
@[simp] theorem State.setRun_present (s : State) (r : RunState) (a : Word) : (s.setRun r).present a = s.present a := rfl
@[simp] theorem State.setRun_peek (s : State) (r : RunState) (a : Word) : (s.setRun r).peek a = s.peek a := rfl
@[simp] theorem State.setRun_byteAt (s : State) (r : RunState) (a : Word) : (s.setRun r).byteAt a = s.byteAt a := rfl
@[simp] theorem State.setRun_nextPc (s : State) (r : RunState) (len : Nat) : (s.setRun r).nextPc len = s.nextPc len := rfl

/-! ### `State.setMask` -/

@[simp] theorem State.setMask_a (s : State) (m : MaskHistory) : (s.setMask m).a = s.a := rfl
@[simp] theorem State.setMask_h (s : State) (m : MaskHistory) : (s.setMask m).h = s.h := rfl
@[simp] theorem State.setMask_x (s : State) (m : MaskHistory) : (s.setMask m).x = s.x := rfl
@[simp] theorem State.setMask_sp (s : State) (m : MaskHistory) : (s.setMask m).sp = s.sp := rfl
@[simp] theorem State.setMask_pc (s : State) (m : MaskHistory) : (s.setMask m).pc = s.pc := rfl
@[simp] theorem State.setMask_ccr (s : State) (m : MaskHistory) : (s.setMask m).ccr = s.ccr := rfl
@[simp] theorem State.setMask_run (s : State) (m : MaskHistory) : (s.setMask m).run = s.run := rfl
@[simp] theorem State.setMask_mask (s : State) (m : MaskHistory) : (s.setMask m).mask = m := rfl
@[simp] theorem State.setMask_irqEnable (s : State) (m : MaskHistory) : (s.setMask m).irqEnable = s.irqEnable := rfl
@[simp] theorem State.setMask_mem (s : State) (m : MaskHistory) : (s.setMask m).mem = s.mem := rfl
@[simp] theorem State.setMask_env (s : State) (m : MaskHistory) : (s.setMask m).env = s.env := rfl
@[simp] theorem State.setMask_future (s : State) (m : MaskHistory) : (s.setMask m).future = s.future := rfl
@[simp] theorem State.setMask_draws (s : State) (m : MaskHistory) : (s.setMask m).draws = s.draws := rfl
@[simp] theorem State.setMask_devOut (s : State) (m : MaskHistory) : (s.setMask m).devOut = s.devOut := rfl
@[simp] theorem State.setMask_cfg (s : State) (m : MaskHistory) : (s.setMask m).cfg = s.cfg := rfl
@[simp] theorem State.setMask_hx (s : State) (m : MaskHistory) : (s.setMask m).hx = s.hx := rfl
@[simp] theorem State.setMask_kind (s : State) (m : MaskHistory) (a : Word) : (s.setMask m).kind a = s.kind a := rfl
@[simp] theorem State.setMask_present (s : State) (m : MaskHistory) (a : Word) : (s.setMask m).present a = s.present a := rfl
@[simp] theorem State.setMask_peek (s : State) (m : MaskHistory) (a : Word) : (s.setMask m).peek a = s.peek a := rfl
@[simp] theorem State.setMask_byteAt (s : State) (m : MaskHistory) (a : Word) : (s.setMask m).byteAt a = s.byteAt a := rfl
@[simp] theorem State.setMask_nextPc (s : State) (m : MaskHistory) (len : Nat) : (s.setMask m).nextPc len = s.nextPc len := rfl

/-! ### `State.setIrqEnable` -/

@[simp] theorem State.setIrqEnable_a (s : State) (b : Bool) : (s.setIrqEnable b).a = s.a := rfl
@[simp] theorem State.setIrqEnable_h (s : State) (b : Bool) : (s.setIrqEnable b).h = s.h := rfl
@[simp] theorem State.setIrqEnable_x (s : State) (b : Bool) : (s.setIrqEnable b).x = s.x := rfl
@[simp] theorem State.setIrqEnable_sp (s : State) (b : Bool) : (s.setIrqEnable b).sp = s.sp := rfl
@[simp] theorem State.setIrqEnable_pc (s : State) (b : Bool) : (s.setIrqEnable b).pc = s.pc := rfl
@[simp] theorem State.setIrqEnable_ccr (s : State) (b : Bool) : (s.setIrqEnable b).ccr = s.ccr := rfl
@[simp] theorem State.setIrqEnable_run (s : State) (b : Bool) : (s.setIrqEnable b).run = s.run := rfl
@[simp] theorem State.setIrqEnable_mask (s : State) (b : Bool) : (s.setIrqEnable b).mask = s.mask := rfl
@[simp] theorem State.setIrqEnable_irqEnable (s : State) (b : Bool) : (s.setIrqEnable b).irqEnable = b := rfl
@[simp] theorem State.setIrqEnable_mem (s : State) (b : Bool) : (s.setIrqEnable b).mem = s.mem := rfl
@[simp] theorem State.setIrqEnable_env (s : State) (b : Bool) : (s.setIrqEnable b).env = s.env := rfl
@[simp] theorem State.setIrqEnable_future (s : State) (b : Bool) : (s.setIrqEnable b).future = s.future := rfl
@[simp] theorem State.setIrqEnable_draws (s : State) (b : Bool) : (s.setIrqEnable b).draws = s.draws := rfl
@[simp] theorem State.setIrqEnable_devOut (s : State) (b : Bool) : (s.setIrqEnable b).devOut = s.devOut := rfl
@[simp] theorem State.setIrqEnable_cfg (s : State) (b : Bool) : (s.setIrqEnable b).cfg = s.cfg := rfl
@[simp] theorem State.setIrqEnable_hx (s : State) (b : Bool) : (s.setIrqEnable b).hx = s.hx := rfl
@[simp] theorem State.setIrqEnable_kind (s : State) (b : Bool) (a : Word) : (s.setIrqEnable b).kind a = s.kind a := rfl
@[simp] theorem State.setIrqEnable_present (s : State) (b : Bool) (a : Word) : (s.setIrqEnable b).present a = s.present a := rfl
@[simp] theorem State.setIrqEnable_peek (s : State) (b : Bool) (a : Word) : (s.setIrqEnable b).peek a = s.peek a := rfl
@[simp] theorem State.setIrqEnable_byteAt (s : State) (b : Bool) (a : Word) : (s.setIrqEnable b).byteAt a = s.byteAt a := rfl
@[simp] theorem State.setIrqEnable_nextPc (s : State) (b : Bool) (len : Nat) : (s.setIrqEnable b).nextPc len = s.nextPc len := rfl

/-! ### `State.setMem` -/

@[simp] theorem State.setMem_a (s : State) (m : Memory) : (s.setMem m).a = s.a := rfl
@[simp] theorem State.setMem_h (s : State) (m : Memory) : (s.setMem m).h = s.h := rfl
@[simp] theorem State.setMem_x (s : State) (m : Memory) : (s.setMem m).x = s.x := rfl
@[simp] theorem State.setMem_sp (s : State) (m : Memory) : (s.setMem m).sp = s.sp := rfl
@[simp] theorem State.setMem_pc (s : State) (m : Memory) : (s.setMem m).pc = s.pc := rfl
@[simp] theorem State.setMem_ccr (s : State) (m : Memory) : (s.setMem m).ccr = s.ccr := rfl
@[simp] theorem State.setMem_run (s : State) (m : Memory) : (s.setMem m).run = s.run := rfl
@[simp] theorem State.setMem_mask (s : State) (m : Memory) : (s.setMem m).mask = s.mask := rfl
@[simp] theorem State.setMem_irqEnable (s : State) (m : Memory) : (s.setMem m).irqEnable = s.irqEnable := rfl
@[simp] theorem State.setMem_mem (s : State) (m : Memory) : (s.setMem m).mem = m := rfl
@[simp] theorem State.setMem_env (s : State) (m : Memory) : (s.setMem m).env = s.env := rfl
@[simp] theorem State.setMem_future (s : State) (m : Memory) : (s.setMem m).future = s.future := rfl
@[simp] theorem State.setMem_draws (s : State) (m : Memory) : (s.setMem m).draws = s.draws := rfl
@[simp] theorem State.setMem_devOut (s : State) (m : Memory) : (s.setMem m).devOut = s.devOut := rfl
@[simp] theorem State.setMem_cfg (s : State) (m : Memory) : (s.setMem m).cfg = s.cfg := rfl
@[simp] theorem State.setMem_hx (s : State) (m : Memory) : (s.setMem m).hx = s.hx := rfl
@[simp] theorem State.setMem_kind (s : State) (m : Memory) (a : Word) : (s.setMem m).kind a = s.kind a := rfl
@[simp] theorem State.setMem_present (s : State) (m : Memory) (a : Word) : (s.setMem m).present a = s.present a := rfl
@[simp] theorem State.setMem_nextPc (s : State) (m : Memory) (len : Nat) : (s.setMem m).nextPc len = s.nextPc len := rfl

/-! ### `State.drew` -/

@[simp] theorem State.drew_a (s : State) (n : Nat) : (s.drew n).a = s.a := rfl
@[simp] theorem State.drew_h (s : State) (n : Nat) : (s.drew n).h = s.h := rfl
@[simp] theorem State.drew_x (s : State) (n : Nat) : (s.drew n).x = s.x := rfl
@[simp] theorem State.drew_sp (s : State) (n : Nat) : (s.drew n).sp = s.sp := rfl
@[simp] theorem State.drew_pc (s : State) (n : Nat) : (s.drew n).pc = s.pc := rfl
@[simp] theorem State.drew_ccr (s : State) (n : Nat) : (s.drew n).ccr = s.ccr := rfl
@[simp] theorem State.drew_run (s : State) (n : Nat) : (s.drew n).run = s.run := rfl
@[simp] theorem State.drew_mask (s : State) (n : Nat) : (s.drew n).mask = s.mask := rfl
@[simp] theorem State.drew_irqEnable (s : State) (n : Nat) : (s.drew n).irqEnable = s.irqEnable := rfl
@[simp] theorem State.drew_mem (s : State) (n : Nat) : (s.drew n).mem = s.mem := rfl
@[simp] theorem State.drew_env (s : State) (n : Nat) : (s.drew n).env = s.env := rfl
@[simp] theorem State.drew_future (s : State) (n : Nat) : (s.drew n).future = s.future := rfl
@[simp] theorem State.drew_draws (s : State) (n : Nat) : (s.drew n).draws = s.draws + n := rfl
@[simp] theorem State.drew_devOut (s : State) (n : Nat) : (s.drew n).devOut = s.devOut := rfl
@[simp] theorem State.drew_cfg (s : State) (n : Nat) : (s.drew n).cfg = s.cfg := rfl
@[simp] theorem State.drew_hx (s : State) (n : Nat) : (s.drew n).hx = s.hx := rfl
@[simp] theorem State.drew_kind (s : State) (n : Nat) (a : Word) : (s.drew n).kind a = s.kind a := rfl
@[simp] theorem State.drew_present (s : State) (n : Nat) (a : Word) : (s.drew n).present a = s.present a := rfl
@[simp] theorem State.drew_peek (s : State) (n : Nat) (a : Word) : (s.drew n).peek a = s.peek a := rfl
@[simp] theorem State.drew_nextPc (s : State) (n : Nat) (len : Nat) : (s.drew n).nextPc len = s.nextPc len := rfl

/-! ### `State.pushDev` -/

@[simp] theorem State.pushDev_a (s : State) (c : Host.Cell) : (s.pushDev c).a = s.a := rfl
@[simp] theorem State.pushDev_h (s : State) (c : Host.Cell) : (s.pushDev c).h = s.h := rfl
@[simp] theorem State.pushDev_x (s : State) (c : Host.Cell) : (s.pushDev c).x = s.x := rfl
@[simp] theorem State.pushDev_sp (s : State) (c : Host.Cell) : (s.pushDev c).sp = s.sp := rfl
@[simp] theorem State.pushDev_pc (s : State) (c : Host.Cell) : (s.pushDev c).pc = s.pc := rfl
@[simp] theorem State.pushDev_ccr (s : State) (c : Host.Cell) : (s.pushDev c).ccr = s.ccr := rfl
@[simp] theorem State.pushDev_run (s : State) (c : Host.Cell) : (s.pushDev c).run = s.run := rfl
@[simp] theorem State.pushDev_mask (s : State) (c : Host.Cell) : (s.pushDev c).mask = s.mask := rfl
@[simp] theorem State.pushDev_irqEnable (s : State) (c : Host.Cell) : (s.pushDev c).irqEnable = s.irqEnable := rfl
@[simp] theorem State.pushDev_mem (s : State) (c : Host.Cell) : (s.pushDev c).mem = s.mem := rfl
@[simp] theorem State.pushDev_env (s : State) (c : Host.Cell) : (s.pushDev c).env = s.env := rfl
@[simp] theorem State.pushDev_future (s : State) (c : Host.Cell) : (s.pushDev c).future = s.future := rfl
@[simp] theorem State.pushDev_draws (s : State) (c : Host.Cell) : (s.pushDev c).draws = s.draws := rfl
@[simp] theorem State.pushDev_devOut (s : State) (c : Host.Cell) : (s.pushDev c).devOut = c :: s.devOut := rfl
@[simp] theorem State.pushDev_cfg (s : State) (c : Host.Cell) : (s.pushDev c).cfg = s.cfg := rfl
@[simp] theorem State.pushDev_hx (s : State) (c : Host.Cell) : (s.pushDev c).hx = s.hx := rfl
@[simp] theorem State.pushDev_kind (s : State) (c : Host.Cell) (a : Word) : (s.pushDev c).kind a = s.kind a := rfl
@[simp] theorem State.pushDev_present (s : State) (c : Host.Cell) (a : Word) : (s.pushDev c).present a = s.present a := rfl
@[simp] theorem State.pushDev_peek (s : State) (c : Host.Cell) (a : Word) : (s.pushDev c).peek a = s.peek a := rfl
@[simp] theorem State.pushDev_byteAt (s : State) (c : Host.Cell) (a : Word) : (s.pushDev c).byteAt a = s.byteAt a := rfl
@[simp] theorem State.pushDev_nextPc (s : State) (c : Host.Cell) (len : Nat) : (s.pushDev c).nextPc len = s.nextPc len := rfl

/-! ### `State.advance` -/

@[simp] theorem State.advance_a (s : State) (len : Nat) : (s.advance len).a = s.a := rfl
@[simp] theorem State.advance_h (s : State) (len : Nat) : (s.advance len).h = s.h := rfl
@[simp] theorem State.advance_x (s : State) (len : Nat) : (s.advance len).x = s.x := rfl
@[simp] theorem State.advance_sp (s : State) (len : Nat) : (s.advance len).sp = s.sp := rfl
@[simp] theorem State.advance_pc (s : State) (len : Nat) : (s.advance len).pc = s.nextPc len := rfl
@[simp] theorem State.advance_ccr (s : State) (len : Nat) : (s.advance len).ccr = s.ccr := rfl
@[simp] theorem State.advance_run (s : State) (len : Nat) : (s.advance len).run = s.run := rfl
@[simp] theorem State.advance_mask (s : State) (len : Nat) : (s.advance len).mask = s.mask := rfl
@[simp] theorem State.advance_irqEnable (s : State) (len : Nat) : (s.advance len).irqEnable = s.irqEnable := rfl
@[simp] theorem State.advance_mem (s : State) (len : Nat) : (s.advance len).mem = s.mem := rfl
@[simp] theorem State.advance_env (s : State) (len : Nat) : (s.advance len).env = s.env := rfl
@[simp] theorem State.advance_future (s : State) (len : Nat) : (s.advance len).future = s.future := rfl
@[simp] theorem State.advance_draws (s : State) (len : Nat) : (s.advance len).draws = s.draws := rfl
@[simp] theorem State.advance_devOut (s : State) (len : Nat) : (s.advance len).devOut = s.devOut := rfl
@[simp] theorem State.advance_cfg (s : State) (len : Nat) : (s.advance len).cfg = s.cfg := rfl
@[simp] theorem State.advance_hx (s : State) (len : Nat) : (s.advance len).hx = s.hx := rfl
@[simp] theorem State.advance_kind (s : State) (len : Nat) (a : Word) : (s.advance len).kind a = s.kind a := rfl
@[simp] theorem State.advance_present (s : State) (len : Nat) (a : Word) : (s.advance len).present a = s.present a := rfl
@[simp] theorem State.advance_peek (s : State) (len : Nat) (a : Word) : (s.advance len).peek a = s.peek a := rfl
@[simp] theorem State.advance_byteAt (s : State) (len : Nat) (a : Word) : (s.advance len).byteAt a = s.byteAt a := rfl

/-! ### Data accesses -/

@[simp] theorem State.afterRead_a (s : State) (a : Word) : (s.afterRead a).a = s.a := by
  unfold State.afterRead; split <;> rfl
@[simp] theorem State.afterRead_h (s : State) (a : Word) : (s.afterRead a).h = s.h := by
  unfold State.afterRead; split <;> rfl
@[simp] theorem State.afterRead_x (s : State) (a : Word) : (s.afterRead a).x = s.x := by
  unfold State.afterRead; split <;> rfl
@[simp] theorem State.afterRead_sp (s : State) (a : Word) : (s.afterRead a).sp = s.sp := by
  unfold State.afterRead; split <;> rfl
@[simp] theorem State.afterRead_pc (s : State) (a : Word) : (s.afterRead a).pc = s.pc := by
  unfold State.afterRead; split <;> rfl
@[simp] theorem State.afterRead_ccr (s : State) (a : Word) : (s.afterRead a).ccr = s.ccr := by
  unfold State.afterRead; split <;> rfl
@[simp] theorem State.afterRead_run (s : State) (a : Word) : (s.afterRead a).run = s.run := by
  unfold State.afterRead; split <;> rfl
@[simp] theorem State.afterRead_mask (s : State) (a : Word) : (s.afterRead a).mask = s.mask := by
  unfold State.afterRead; split <;> rfl
@[simp] theorem State.afterRead_irqEnable (s : State) (a : Word) : (s.afterRead a).irqEnable = s.irqEnable := by
  unfold State.afterRead; split <;> rfl
@[simp] theorem State.afterRead_mem (s : State) (a : Word) : (s.afterRead a).mem = s.mem := by
  unfold State.afterRead; split <;> rfl
@[simp] theorem State.afterRead_env (s : State) (a : Word) : (s.afterRead a).env = s.env := by
  unfold State.afterRead; split <;> rfl
@[simp] theorem State.afterRead_future (s : State) (a : Word) : (s.afterRead a).future = s.future := by
  unfold State.afterRead; split <;> rfl
@[simp] theorem State.afterRead_devOut (s : State) (a : Word) : (s.afterRead a).devOut = s.devOut := by
  unfold State.afterRead; split <;> rfl
@[simp] theorem State.afterRead_cfg (s : State) (a : Word) : (s.afterRead a).cfg = s.cfg := by
  unfold State.afterRead; split <;> rfl
@[simp] theorem State.afterRead_hx (s : State) (a : Word) : (s.afterRead a).hx = s.hx := by
  simp [State.hx]
@[simp] theorem State.afterRead_kind (s : State) (a b : Word) : (s.afterRead a).kind b = s.kind b := by
  simp [State.kind]
@[simp] theorem State.afterRead_present (s : State) (a b : Word) : (s.afterRead a).present b = s.present b := by
  simp [State.present]
@[simp] theorem State.afterRead_peek (s : State) (a b : Word) : (s.afterRead a).peek b = s.peek b := by
  simp [State.peek]
@[simp] theorem State.afterRead_nextPc (s : State) (a : Word) (len : Nat) : (s.afterRead a).nextPc len = s.nextPc len := by
  simp [State.nextPc]

@[simp] theorem State.afterWrite_a (s : State) (a : Word) (v : Byte) : (s.afterWrite a v).a = s.a := by
  unfold State.afterWrite; split <;> rfl
@[simp] theorem State.afterWrite_h (s : State) (a : Word) (v : Byte) : (s.afterWrite a v).h = s.h := by
  unfold State.afterWrite; split <;> rfl
@[simp] theorem State.afterWrite_x (s : State) (a : Word) (v : Byte) : (s.afterWrite a v).x = s.x := by
  unfold State.afterWrite; split <;> rfl
@[simp] theorem State.afterWrite_sp (s : State) (a : Word) (v : Byte) : (s.afterWrite a v).sp = s.sp := by
  unfold State.afterWrite; split <;> rfl
@[simp] theorem State.afterWrite_pc (s : State) (a : Word) (v : Byte) : (s.afterWrite a v).pc = s.pc := by
  unfold State.afterWrite; split <;> rfl
@[simp] theorem State.afterWrite_ccr (s : State) (a : Word) (v : Byte) : (s.afterWrite a v).ccr = s.ccr := by
  unfold State.afterWrite; split <;> rfl
@[simp] theorem State.afterWrite_run (s : State) (a : Word) (v : Byte) : (s.afterWrite a v).run = s.run := by
  unfold State.afterWrite; split <;> rfl
@[simp] theorem State.afterWrite_mask (s : State) (a : Word) (v : Byte) : (s.afterWrite a v).mask = s.mask := by
  unfold State.afterWrite; split <;> rfl
@[simp] theorem State.afterWrite_irqEnable (s : State) (a : Word) (v : Byte) : (s.afterWrite a v).irqEnable = s.irqEnable := by
  unfold State.afterWrite; split <;> rfl
@[simp] theorem State.afterWrite_env (s : State) (a : Word) (v : Byte) : (s.afterWrite a v).env = s.env := by
  unfold State.afterWrite; split <;> rfl
@[simp] theorem State.afterWrite_future (s : State) (a : Word) (v : Byte) : (s.afterWrite a v).future = s.future := by
  unfold State.afterWrite; split <;> rfl
@[simp] theorem State.afterWrite_draws (s : State) (a : Word) (v : Byte) : (s.afterWrite a v).draws = s.draws := by
  unfold State.afterWrite; split <;> rfl
@[simp] theorem State.afterWrite_cfg (s : State) (a : Word) (v : Byte) : (s.afterWrite a v).cfg = s.cfg := by
  unfold State.afterWrite; split <;> rfl
@[simp] theorem State.afterWrite_hx (s : State) (a : Word) (v : Byte) : (s.afterWrite a v).hx = s.hx := by
  simp [State.hx]
@[simp] theorem State.afterWrite_kind (s : State) (a b : Word) (v : Byte) : (s.afterWrite a v).kind b = s.kind b := by
  simp [State.kind]
@[simp] theorem State.afterWrite_present (s : State) (a b : Word) (v : Byte) : (s.afterWrite a v).present b = s.present b := by
  simp [State.present]
@[simp] theorem State.afterWrite_nextPc (s : State) (a : Word) (v : Byte) (len : Nat) :
    (s.afterWrite a v).nextPc len = s.nextPc len := by
  simp [State.nextPc]

/-! ### `State.tick` -/

@[simp] theorem State.tick_a (s : State) : s.tick.a = s.a := by
  unfold State.tick; split <;> rfl
@[simp] theorem State.tick_h (s : State) : s.tick.h = s.h := by
  unfold State.tick; split <;> rfl
@[simp] theorem State.tick_x (s : State) : s.tick.x = s.x := by
  unfold State.tick; split <;> rfl
@[simp] theorem State.tick_sp (s : State) : s.tick.sp = s.sp := by
  unfold State.tick; split <;> rfl
@[simp] theorem State.tick_pc (s : State) : s.tick.pc = s.pc := by
  unfold State.tick; split <;> rfl
@[simp] theorem State.tick_ccr (s : State) : s.tick.ccr = s.ccr := by
  unfold State.tick; split <;> rfl
@[simp] theorem State.tick_run (s : State) : s.tick.run = s.run := by
  unfold State.tick; split <;> rfl
@[simp] theorem State.tick_mask (s : State) : s.tick.mask = s.mask := by
  unfold State.tick; split <;> rfl
@[simp] theorem State.tick_irqEnable (s : State) : s.tick.irqEnable = s.irqEnable := by
  unfold State.tick; split <;> rfl
@[simp] theorem State.tick_mem (s : State) : s.tick.mem = s.mem := by
  unfold State.tick; split <;> rfl
@[simp] theorem State.tick_draws (s : State) : s.tick.draws = s.draws := by
  unfold State.tick; split <;> rfl
@[simp] theorem State.tick_devOut (s : State) : s.tick.devOut = s.devOut := by
  unfold State.tick; split <;> rfl
@[simp] theorem State.tick_cfg (s : State) : s.tick.cfg = s.cfg := by
  unfold State.tick; split <;> rfl
@[simp] theorem State.tick_peek (s : State) (a : Word) : s.tick.peek a = s.peek a := by
  simp [State.peek]

/-! ### `H:X` -/

@[simp] theorem wordOf_hiByte_loByte (v : Word) : wordOf (hiByte v) (loByte v) = v := by
  apply BitVec.eq_of_getLsbD_eq
  intro i hi
  show BitVec.getLsbD (v.extractLsb' 8 8 ++ v.extractLsb' 0 8) i = v.getLsbD i
  rw [BitVec.getLsbD_append, BitVec.getLsbD_extractLsb', BitVec.getLsbD_extractLsb']
  by_cases h : i < 8
  · simp [h]
  · rw [show 8 + (i - 8) = i by omega]; simp [h, show i - 8 < 8 by omega]
@[simp] theorem hiByte_wordOf (hi lo : Byte) : hiByte (wordOf hi lo) = hi := by
  apply BitVec.eq_of_getLsbD_eq
  intro i h
  show BitVec.getLsbD (BitVec.extractLsb' 8 8 (hi ++ lo)) i = hi.getLsbD i
  rw [BitVec.getLsbD_extractLsb', BitVec.getLsbD_append]
  simp [h]
@[simp] theorem loByte_wordOf (hi lo : Byte) : loByte (wordOf hi lo) = lo := by
  apply BitVec.eq_of_getLsbD_eq
  intro i h
  show BitVec.getLsbD (BitVec.extractLsb' 0 8 (hi ++ lo)) i = lo.getLsbD i
  rw [BitVec.getLsbD_extractLsb', BitVec.getLsbD_append]
  simp [h]
@[simp] theorem State.setHx_hx (s : State) (v : Word) : (s.setHx v).hx = v := wordOf_hiByte_loByte v

end Sys2Proof.Machine
end

