-- ==== Sys2Proof/Laws/Memory.lean ====
section
/-! SUPPORT. Memory: every operation keeps the canonical form, and what a read gives after a write. -/

namespace Sys2Proof.Machine

theorem Memory.wfFrom_mono {lo lo' : Nat} (h : lo ≤ lo') : ∀ {m : Memory}, wfFrom lo' m = true → wfFrom lo m = true
  | [], _ => rfl
  | (a, v) :: rest, hm => by
    simp only [wfFrom, Bool.and_eq_true, decide_eq_true_eq] at hm ⊢
    exact ⟨⟨⟨by omega, hm.1.1.2⟩, hm.1.2⟩, hm.2⟩

theorem Memory.wfFrom_place {lo a : Nat} {v : Byte} {rest : Memory} (hlo : lo ≤ a) (ha : a < 65536)
    (h : wfFrom (a + 1) rest = true) : wfFrom lo (place a v rest) = true := by
  unfold place
  split
  · exact wfFrom_mono (by omega) h
  · simp only [wfFrom, Bool.and_eq_true, decide_eq_true_eq]
    exact ⟨⟨⟨hlo, ha⟩, ‹_›⟩, h⟩

theorem Memory.wfFrom_write {a : Nat} {v : Byte} (ha : a < 65536) :
    ∀ {m : Memory} {lo : Nat}, lo ≤ a → wfFrom lo m = true → wfFrom lo (write m a v) = true
  | [], _, hlo, _ => wfFrom_place hlo ha rfl
  | (b, w) :: rest, lo, hlo, hm => by
    simp only [wfFrom, Bool.and_eq_true, decide_eq_true_eq] at hm
    obtain ⟨⟨⟨hb, hb'⟩, hw⟩, hrest⟩ := hm
    unfold write
    split
    · refine wfFrom_place hlo ha ?_
      simp only [wfFrom, Bool.and_eq_true, decide_eq_true_eq]
      exact ⟨⟨⟨by omega, hb'⟩, hw⟩, hrest⟩
    · split
      · subst_vars; exact wfFrom_place hlo ha hrest
      · simp only [wfFrom, Bool.and_eq_true, decide_eq_true_eq]
        exact ⟨⟨⟨hb, hb'⟩, hw⟩, wfFrom_write ha (by omega) hrest⟩

/-- A write keeps the canonical form. -/
theorem Memory.wf_write {m : Memory} {a : Nat} (v : Byte) (ha : a < 65536) (h : m.wf = true) : (m.write a v).wf = true :=
  wfFrom_write ha (Nat.zero_le a) h

theorem Memory.read_of_wfFrom_lt {a : Nat} : ∀ {m : Memory} {lo : Nat}, a < lo → wfFrom lo m = true → read m a = unlistedByte
  | [], _, _, _ => rfl
  | (b, w) :: rest, lo, hlo, hm => by
    simp only [wfFrom, Bool.and_eq_true, decide_eq_true_eq] at hm
    unfold read
    rw [if_neg (by omega)]
    exact read_of_wfFrom_lt (show a < b + 1 by omega) hm.2

theorem Memory.read_place_same {a : Nat} {v : Byte} {rest : Memory} (h : wfFrom (a + 1) rest = true) :
    read (place a v rest) a = v := by
  unfold place
  split
  · rw [read_of_wfFrom_lt (Nat.lt_succ_self a) h]; exact Eq.symm ‹_›
  · simp [read]

theorem Memory.read_write_same_from {a : Nat} {v : Byte} :
    ∀ {m : Memory} {lo : Nat}, wfFrom lo m = true → read (write m a v) a = v
  | [], _, _ => read_place_same rfl
  | (b, w) :: rest, lo, hm => by
    simp only [wfFrom, Bool.and_eq_true, decide_eq_true_eq] at hm
    unfold write
    split
    · refine read_place_same ?_
      simp only [wfFrom, Bool.and_eq_true, decide_eq_true_eq]
      exact ⟨⟨⟨by omega, hm.1.1.2⟩, hm.1.2⟩, hm.2⟩
    · split
      · subst_vars; exact read_place_same hm.2
      · unfold read; rw [if_neg ‹_›]; exact read_write_same_from hm.2

/-- A read of the address just written gives the byte written. -/
theorem Memory.read_write_same {m : Memory} (a : Nat) (v : Byte) (h : m.wf = true) : (m.write a v).read a = v :=
  read_write_same_from h

theorem Memory.read_place_other {a b : Nat} {v : Byte} (h : b ≠ a) (rest : Memory) :
    read (place a v rest) b = read rest b := by
  unfold place
  split
  · rfl
  · simp [read, h]

/-- A write leaves every other address alone. -/
theorem Memory.read_write_other {a b : Nat} {v : Byte} (h : b ≠ a) : ∀ m : Memory, (m.write a v).read b = m.read b
  | [] => read_place_other h []
  | (c, w) :: rest => by
    unfold write
    split
    · exact read_place_other h _
    · split
      · subst_vars; rw [read_place_other h]; simp [read, h]
      · simp only [read]; split
        · rfl
        · exact read_write_other h rest

/-- The memory of the machine after reset is in canonical form. -/
theorem reset_mem_wf : State.reset.mem.wf = true := rfl

/-! ### The same for the state -/

theorem State.afterWrite_wf {s : State} (a : Word) (v : Byte) (h : s.mem.wf = true) : (s.afterWrite a v).mem.wf = true := by
  unfold State.afterWrite
  split
  · exact Memory.wf_write v a.isLt h
  · exact h
  · exact h
  · exact h

theorem State.afterWrite_peek_other {s : State} {a b : Word} (v : Byte) (h : b ≠ a) : (s.afterWrite a v).peek b = s.peek b := by
  unfold State.afterWrite
  split <;> try rfl
  exact Memory.read_write_other (fun e => h (BitVec.eq_of_toNat_eq e)) _

theorem State.afterWrite_peek_same {s : State} (a : Word) (v : Byte) (hm : s.mem.wf = true) (hk : s.kind a = .ram) :
    (s.afterWrite a v).peek a = v := by
  unfold State.afterWrite
  rw [hk]
  exact Memory.read_write_same _ v hm

end Sys2Proof.Machine
end

