-- ==== Sys2Proof/Laws/Ops.lean ====
section
/-! SUPPORT. What each shared operation can do: if it answers a next state, where that state comes from. -/

namespace Sys2Proof.Machine

theorem mapNext_eq_next {f : State → State} {o : Out} {t : State} (h : mapNext f o = .next t) :
    ∃ u, o = .next u ∧ t = f u := by
  cases o with
  | next u => exact ⟨u, rfl, by simpa [mapNext, eq_comm] using h⟩
  | fault r => cases h
  | refused r => cases h

@[simp] theorem mapNext_next (f : State → State) (s : State) : mapNext f (.next s) = .next (f s) := rfl

/-! ### Memory accesses -/

theorem readByte_eq_next {s t : State} {a : Word} {k : Byte → State → Out} :
    s.readByte a k = .next t ↔ s.present a = true ∧ k (s.byteAt a) (s.afterRead a) = .next t := by
  unfold State.readByte; split <;> simp_all

theorem readByte_of_present {s : State} {a : Word} (h : s.present a = true) (k : Byte → State → Out) :
    s.readByte a k = k (s.byteAt a) (s.afterRead a) := if_pos h

theorem writeByte_eq_next {s t : State} {a : Word} {v : Byte} {k : State → Out} :
    s.writeByte a v k = .next t ↔ s.present a = true ∧ k (s.afterWrite a v) = .next t := by
  unfold State.writeByte; split <;> simp_all

theorem writeByte_of_present {s : State} {a : Word} (h : s.present a = true) (v : Byte) (k : State → Out) :
    s.writeByte a v k = k (s.afterWrite a v) := if_pos h

theorem readWord_eq_next {s t : State} {a : Word} {k : Word → State → Out} :
    s.readWord a k = .next t ↔ s.present a = true ∧ s.present (a + 1) = true ∧
      k (wordOf (s.byteAt a) ((s.afterRead a).byteAt (a + 1))) ((s.afterRead a).afterRead (a + 1)) = .next t := by
  unfold State.readWord; simp [readByte_eq_next]

theorem writeWord_eq_next {s t : State} {a v : Word} {k : State → Out} :
    s.writeWord a v k = .next t ↔ s.present a = true ∧ s.present (a + 1) = true ∧
      k ((s.afterWrite a (hiByte v)).afterWrite (a + 1) (loByte v)) = .next t := by
  unfold State.writeWord; simp [writeByte_eq_next]

/-! ### The stack -/

/-- The state after a push of `v` (R9). -/
theorem push_eq_next {s t : State} {v : Byte} {k : State → Out} :
    s.push v k = .next t ↔ s.present s.sp = true ∧ k ((s.afterWrite s.sp v).setSp (s.sp - 1)) = .next t := by
  unfold State.push; simp [writeByte_eq_next]

/-- The byte and the state after a pull (R9). -/
theorem pull_eq_next {s t : State} {k : Byte → State → Out} :
    s.pull k = .next t ↔ s.present (s.sp + 1) = true ∧
      k (s.byteAt (s.sp + 1)) ((s.setSp (s.sp + 1)).afterRead (s.sp + 1)) = .next t := by
  unfold State.pull; rw [readByte_eq_next]; rfl

theorem pushWord_eq_next {s t : State} {v : Word} {k : State → Out} :
    s.pushWord v k = .next t ↔ s.present s.sp = true ∧ s.present (s.sp - 1) = true ∧
      k ((((s.afterWrite s.sp (loByte v)).setSp (s.sp - 1)).afterWrite (s.sp - 1) (hiByte v)).setSp (s.sp - 1 - 1)) = .next t := by
  unfold State.pushWord; simp [push_eq_next]

theorem pullWord_eq_next {s t : State} {k : Word → State → Out} :
    s.pullWord k = .next t ↔ s.present (s.sp + 1) = true ∧ s.present (s.sp + 1 + 1) = true ∧
      k (wordOf (s.byteAt (s.sp + 1)) (((s.setSp (s.sp + 1)).afterRead (s.sp + 1)).byteAt (s.sp + 1 + 1)))
        ((((s.setSp (s.sp + 1)).afterRead (s.sp + 1)).setSp (s.sp + 1 + 1)).afterRead (s.sp + 1 + 1)) = .next t := by
  unfold State.pullWord; simp [pull_eq_next]

/-! ### Operands -/

theorem withSrc_imm (ii : Byte) (s : State) (f : Byte → State → State) :
    withSrc (.imm ii) s f = .next ((f ii s).advance 2) := rfl

theorem withSrc_mem {ea : Ea} {s : State} (h : s.present (s.ea ea) = true) (f : Byte → State → State) :
    withSrc (.mem ea) s f = .next ((f (s.byteAt (s.ea ea)) (s.afterRead (s.ea ea))).advance ea.length) := by
  simp only [withSrc, State.readSrc, readByte_of_present h]; rfl

/-- What an instruction with a byte operand can answer. -/
theorem withSrc_eq_next {src : Src} {s t : State} {f : Byte → State → State} (h : withSrc src s f = .next t) :
    ∃ m u, (u = s ∨ ∃ a, u = s.afterRead a) ∧ t = (f m u).advance src.length := by
  cases src with
  | imm ii => cases h; exact ⟨ii, s, .inl rfl, rfl⟩
  | mem ea =>
    simp only [withSrc, State.readSrc, readByte_eq_next] at h
    cases h.2; exact ⟨_, _, .inr ⟨_, rfl⟩, rfl⟩

theorem readSrc16_eq_next {src : Src16} {s t : State} {k : Word → State → Out} (h : s.readSrc16 src k = .next t) :
    ∃ m u, (u = s ∨ ∃ a b, u = (s.afterRead a).afterRead b) ∧ k m u = .next t := by
  cases src with
  | imm v => exact ⟨v, s, .inl rfl, h⟩
  | dir dd => rw [State.readSrc16, readWord_eq_next] at h; exact ⟨_, _, .inr ⟨_, _, rfl⟩, h.2.2⟩

theorem storeByte_eq_next {ea : Ea} {v : Byte} {s t : State} :
    storeByte ea v s = .next t ↔ s.present (s.ea ea) = true ∧
      t = ((s.afterWrite (s.ea ea) v).setCcr (s.ccr.logic8 v)).advance ea.length := by
  unfold storeByte
  simp only [writeByte_eq_next, State.afterWrite_ccr, Host.Outcome.next.injEq]
  constructor <;> rintro ⟨h, rfl⟩ <;> exact ⟨h, rfl⟩

theorem rmwMem_eq_next {f : Byte → Flags → Byte × Flags} {ea : Ea} {s t : State} :
    rmwMem f ea s = .next t ↔ s.present (s.ea ea) = true ∧
      t = (((s.afterRead (s.ea ea)).afterWrite (s.ea ea) (f (s.byteAt (s.ea ea)) s.ccr).1).setCcr
        (f (s.byteAt (s.ea ea)) s.ccr).2).advance ea.length := by
  unfold rmwMem
  simp only [readByte_eq_next, writeByte_eq_next, State.afterRead_present, State.afterRead_ccr, Host.Outcome.next.injEq]
  constructor
  · rintro ⟨h, -, rfl⟩; exact ⟨h, rfl⟩
  · rintro ⟨h, rfl⟩; exact ⟨h, h, rfl⟩

/-! ### Exceptions -/

/-- The state after the five pushes of an exception entry, from SP, the values and the state before (R266). -/
theorem takeException_eq_next {s t : State} {ret vector : Word} (h : s.takeException ret vector = .next t) :
    ∃ s1 s2 s3 s4 s5 target,
      s1 = (s.afterWrite s.sp (loByte ret)).setSp (s.sp - 1) ∧
      s2 = (s1.afterWrite s1.sp (hiByte ret)).setSp (s1.sp - 1) ∧
      s3 = (s2.afterWrite s2.sp s.x).setSp (s2.sp - 1) ∧
      s4 = (s3.afterWrite s3.sp s.a).setSp (s3.sp - 1) ∧
      s5 = ((s4.afterWrite s4.sp (s.ccr.toByte s.cfg.ccrBits65)).setSp (s4.sp - 1)).setCcr { s.ccr with i := true } ∧
      target = wordOf (s5.byteAt vector) ((s5.afterRead vector).byteAt (vector + 1)) ∧
      t = ((((s5.afterRead vector).afterRead (vector + 1)).setPc target).setRun .running) := by
  unfold State.takeException at h
  simp only [pushWord_eq_next, push_eq_next, readWord_eq_next, Host.Outcome.next.injEq] at h
  obtain ⟨-, -, -, -, -, -, -, rfl⟩ := h
  exact ⟨_, _, _, _, _, _, rfl, rfl, rfl, rfl, by simp, rfl, rfl⟩

/-- The state after a return from an exception (R270). -/
theorem returnFromException_eq_next {s t : State} (h : s.returnFromException = .next t) :
    ∃ c a x s1 s2 s3 s4 s5,
      s1 = (s.setSp (s.sp + 1)).afterRead (s.sp + 1) ∧ c = s.byteAt (s.sp + 1) ∧
      s2 = (s1.setSp (s1.sp + 1)).afterRead (s1.sp + 1) ∧ a = s1.byteAt (s1.sp + 1) ∧
      s3 = (s2.setSp (s2.sp + 1)).afterRead (s2.sp + 1) ∧ x = s2.byteAt (s2.sp + 1) ∧
      s4 = (s3.setSp (s3.sp + 1)).afterRead (s3.sp + 1) ∧
      s5 = (s4.setSp (s4.sp + 1)).afterRead (s4.sp + 1) ∧
      t = (((((s5.setCcr (Flags.ofCcrByte c)).setA a).setX x).setPc
        (wordOf (s3.byteAt (s3.sp + 1)) (s4.byteAt (s4.sp + 1)))).setMask
        (maskAfterRti s.ccr.i (Flags.ofCcrByte c).i)) := by
  unfold State.returnFromException at h
  simp only [pullWord_eq_next, pull_eq_next, Host.Outcome.next.injEq] at h
  obtain ⟨-, -, -, -, -, rfl⟩ := h
  exact ⟨_, _, _, _, _, _, _, _, rfl, rfl, rfl, rfl, rfl, rfl, rfl, rfl, by simp⟩

/-- The state after a reset (R291). -/
theorem takeReset_eq_next {s t : State} (h : s.takeReset = .next t) :
    ∃ r, r = s.resetRegisters ∧
      t = ((r.afterRead s.cfg.resetVector).afterRead (s.cfg.resetVector + 1)).setPc
        (wordOf (r.byteAt s.cfg.resetVector) ((r.afterRead s.cfg.resetVector).byteAt (s.cfg.resetVector + 1))) := by
  unfold State.takeReset at h
  simp only [readWord_eq_next, Host.Outcome.next.injEq] at h
  exact ⟨_, rfl, h.2.2.symm⟩

end Sys2Proof.Machine
end

