-- ==== Sys2Proof/Laws/Accesses.lean ====
section
/-! SUPPORT. What making some accesses can do, and the cutting short of an instruction or an entry. -/

namespace Sys2Proof.Machine

@[simp] theorem replay_nil (s : State) (k : State → Out) : s.replay [] k = k s := rfl

@[simp] theorem replay_read (s : State) (addr : Word) (rest : List Access) (k : State → Out) :
    s.replay (.read addr :: rest) k = s.readByte addr fun _ s1 => s1.replay rest k := rfl

@[simp] theorem replay_write (s : State) (addr : Word) (v : Byte) (rest : List Access) (k : State → Out) :
    s.replay (.write addr v :: rest) k = s.writeByte addr v fun s1 => s1.replay rest k := rfl

/-- Whatever comes after the accesses gets the state they leave. -/
theorem replay_eq_next {accs : List Access} {k : State → Out} {t : State} : ∀ {s : State},
    s.replay accs k = .next t ↔ ∃ u, s.replay accs .next = .next u ∧ k u = .next t := by
  induction accs with
  | nil => intro s; simp
  | cons acc rest ih =>
    intro s
    cases acc with
    | read addr =>
      simp only [replay_read, readByte_eq_next, ih]
      exact ⟨fun ⟨h, u, hu, hk⟩ => ⟨u, ⟨h, hu⟩, hk⟩, fun ⟨u, ⟨h, hu⟩, hk⟩ => ⟨h, u, hu, hk⟩⟩
    | write addr v =>
      simp only [replay_write, writeByte_eq_next, ih]
      exact ⟨fun ⟨h, u, hu, hk⟩ => ⟨u, ⟨h, hu⟩, hk⟩, fun ⟨u, ⟨h, hu⟩, hk⟩ => ⟨h, u, hu, hk⟩⟩

/-- What a read and a write of every kind keep, any number of accesses keeps. -/
theorem replay_keeps {P : State → Prop} (hr : ∀ s addr, P s → P (s.afterRead addr))
    (hw : ∀ s addr v, P s → P (s.afterWrite addr v)) {accs : List Access} {u : State} :
    ∀ {s : State}, P s → s.replay accs .next = .next u → P u := by
  induction accs with
  | nil => intro s hs h; cases h; exact hs
  | cons acc rest ih =>
    intro s hs h
    cases acc with
    | read addr => rw [replay_read, readByte_eq_next] at h; exact ih (hr _ _ hs) h.2
    | write addr v => rw [replay_write, writeByte_eq_next] at h; exact ih (hw _ _ _ hs) h.2

/-- Accesses keep memory in canonical form. -/
theorem replay_wf {accs : List Access} {s u : State} (hs : s.mem.wf = true) (h : s.replay accs .next = .next u) :
    u.mem.wf = true :=
  replay_keeps (P := fun s => s.mem.wf = true)
    (fun s addr hs => by unfold State.afterRead; split <;> exact hs)
    (fun _ addr v hs => State.afterWrite_wf addr v hs) hs h

@[simp] theorem orCutShort_none {s : State} (h : s.env.cut = none) (accs : List Access) (whole : Out) :
    s.orCutShort accs whole = whole := by
  unfold State.orCutShort; rw [h]

theorem orCutShort_some {s : State} {n : Nat} (h : s.env.cut = some n) (accs : List Access) (whole : Out) :
    s.orCutShort accs whole = s.replay (accs.take n) State.takeReset := by
  unfold State.orCutShort; rw [h]

/-- The addresses an instruction stores to are the targets of its accesses. -/
theorem stores_eq_targets (s : State) (i : Instr) : stores s i = (s.accesses i).filterMap Access.target := by
  cases i with
  | ldhx src => cases src <;> rfl
  | cphx src => cases src <;> rfl
  | mov form => cases form <;> rfl
  | sub src => cases src <;> rfl
  | cmp src => cases src <;> rfl
  | sbc src => cases src <;> rfl
  | cpx src => cases src <;> rfl
  | and src => cases src <;> rfl
  | bit src => cases src <;> rfl
  | lda src => cases src <;> rfl
  | eor src => cases src <;> rfl
  | adc src => cases src <;> rfl
  | ora src => cases src <;> rfl
  | add src => cases src <;> rfl
  | ldx src => cases src <;> rfl
  | _ => rfl

end Sys2Proof.Machine
end

