-- ==== Sys2Proof/Laws/PerInstr.lean ====
section
/-! SUPPORT. Statements about every instruction, one lemma per constructor. -/

namespace Sys2Proof.Laws.EncodeLength

/-- The encoding of a well-formed instruction has as many bytes as R104 gives its form. -/
def Statement (i : Instr) : Prop :=
  i.wellFormed = true → (encode i).length = i.length

theorem brset (n : BitVec 3) (dd rr : Byte) : Statement (.brset n dd rr) := fun _ => rfl
theorem brclr (n : BitVec 3) (dd rr : Byte) : Statement (.brclr n dd rr) := fun _ => rfl
theorem bset (n : BitVec 3) (dd : Byte) : Statement (.bset n dd) := fun _ => rfl
theorem bclr (n : BitVec 3) (dd : Byte) : Statement (.bclr n dd) := fun _ => rfl
theorem bra (rr : Byte) : Statement (.bra rr) := fun _ => rfl
theorem brn (rr : Byte) : Statement (.brn rr) := fun _ => rfl
theorem bhi (rr : Byte) : Statement (.bhi rr) := fun _ => rfl
theorem bls (rr : Byte) : Statement (.bls rr) := fun _ => rfl
theorem bcc (rr : Byte) : Statement (.bcc rr) := fun _ => rfl
theorem bcs (rr : Byte) : Statement (.bcs rr) := fun _ => rfl
theorem bne (rr : Byte) : Statement (.bne rr) := fun _ => rfl
theorem beq (rr : Byte) : Statement (.beq rr) := fun _ => rfl
theorem bhcc (rr : Byte) : Statement (.bhcc rr) := fun _ => rfl
theorem bhcs (rr : Byte) : Statement (.bhcs rr) := fun _ => rfl
theorem bpl (rr : Byte) : Statement (.bpl rr) := fun _ => rfl
theorem bmi (rr : Byte) : Statement (.bmi rr) := fun _ => rfl
theorem bmc (rr : Byte) : Statement (.bmc rr) := fun _ => rfl
theorem bms (rr : Byte) : Statement (.bms rr) := fun _ => rfl
theorem bil (rr : Byte) : Statement (.bil rr) := fun _ => rfl
theorem bih (rr : Byte) : Statement (.bih rr) := fun _ => rfl
theorem neg (ea : Ea) : Statement (.neg ea) := by
  intro h; cases ea <;> first | rfl | cases h
theorem cbeq (form : CbeqForm) (rr : Byte) : Statement (.cbeq form rr) := by
  intro; cases form <;> rfl
theorem com (ea : Ea) : Statement (.com ea) := by
  intro h; cases ea <;> first | rfl | cases h
theorem lsr (ea : Ea) : Statement (.lsr ea) := by
  intro h; cases ea <;> first | rfl | cases h
theorem sthx (dd : Byte) : Statement (.sthx dd) := fun _ => rfl
theorem ror (ea : Ea) : Statement (.ror ea) := by
  intro h; cases ea <;> first | rfl | cases h
theorem asr (ea : Ea) : Statement (.asr ea) := by
  intro h; cases ea <;> first | rfl | cases h
theorem lsl (ea : Ea) : Statement (.lsl ea) := by
  intro h; cases ea <;> first | rfl | cases h
theorem rol (ea : Ea) : Statement (.rol ea) := by
  intro h; cases ea <;> first | rfl | cases h
theorem dec (ea : Ea) : Statement (.dec ea) := by
  intro h; cases ea <;> first | rfl | cases h
theorem dbnz (ea : Ea) (rr : Byte) : Statement (.dbnz ea rr) := by
  intro h; cases ea <;> first | rfl | cases h
theorem inc (ea : Ea) : Statement (.inc ea) := by
  intro h; cases ea <;> first | rfl | cases h
theorem tst (ea : Ea) : Statement (.tst ea) := by
  intro h; cases ea <;> first | rfl | cases h
theorem clr (ea : Ea) : Statement (.clr ea) := by
  intro h; cases ea <;> first | rfl | cases h
theorem nega : Statement (.nega) := fun _ => rfl
theorem cbeqa (ii rr : Byte) : Statement (.cbeqa ii rr) := fun _ => rfl
theorem mul : Statement (.mul) := fun _ => rfl
theorem coma : Statement (.coma) := fun _ => rfl
theorem lsra : Statement (.lsra) := fun _ => rfl
theorem ldhx (src : Src16) : Statement (.ldhx src) := by
  intro; cases src <;> rfl
theorem rora : Statement (.rora) := fun _ => rfl
theorem asra : Statement (.asra) := fun _ => rfl
theorem lsla : Statement (.lsla) := fun _ => rfl
theorem rola : Statement (.rola) := fun _ => rfl
theorem deca : Statement (.deca) := fun _ => rfl
theorem dbnza (rr : Byte) : Statement (.dbnza rr) := fun _ => rfl
theorem inca : Statement (.inca) := fun _ => rfl
theorem tsta : Statement (.tsta) := fun _ => rfl
theorem mov (form : MovForm) : Statement (.mov form) := by
  intro; cases form <;> rfl
theorem clra : Statement (.clra) := fun _ => rfl
theorem negx : Statement (.negx) := fun _ => rfl
theorem cbeqx (ii rr : Byte) : Statement (.cbeqx ii rr) := fun _ => rfl
theorem div : Statement (.div) := fun _ => rfl
theorem comx : Statement (.comx) := fun _ => rfl
theorem lsrx : Statement (.lsrx) := fun _ => rfl
theorem rorx : Statement (.rorx) := fun _ => rfl
theorem asrx : Statement (.asrx) := fun _ => rfl
theorem lslx : Statement (.lslx) := fun _ => rfl
theorem rolx : Statement (.rolx) := fun _ => rfl
theorem decx : Statement (.decx) := fun _ => rfl
theorem dbnzx (rr : Byte) : Statement (.dbnzx rr) := fun _ => rfl
theorem incx : Statement (.incx) := fun _ => rfl
theorem tstx : Statement (.tstx) := fun _ => rfl
theorem clrx : Statement (.clrx) := fun _ => rfl
theorem nsa : Statement (.nsa) := fun _ => rfl
theorem cphx (src : Src16) : Statement (.cphx src) := by
  intro; cases src <;> rfl
theorem daa : Statement (.daa) := fun _ => rfl
theorem rti : Statement (.rti) := fun _ => rfl
theorem rts : Statement (.rts) := fun _ => rfl
theorem swi : Statement (.swi) := fun _ => rfl
theorem tap : Statement (.tap) := fun _ => rfl
theorem tpa : Statement (.tpa) := fun _ => rfl
theorem pula : Statement (.pula) := fun _ => rfl
theorem psha : Statement (.psha) := fun _ => rfl
theorem pulx : Statement (.pulx) := fun _ => rfl
theorem pshx : Statement (.pshx) := fun _ => rfl
theorem pulh : Statement (.pulh) := fun _ => rfl
theorem pshh : Statement (.pshh) := fun _ => rfl
theorem clrh : Statement (.clrh) := fun _ => rfl
theorem stop : Statement (.stop) := fun _ => rfl
theorem wait : Statement (.wait) := fun _ => rfl
theorem bge (rr : Byte) : Statement (.bge rr) := fun _ => rfl
theorem blt (rr : Byte) : Statement (.blt rr) := fun _ => rfl
theorem bgt (rr : Byte) : Statement (.bgt rr) := fun _ => rfl
theorem ble (rr : Byte) : Statement (.ble rr) := fun _ => rfl
theorem txs : Statement (.txs) := fun _ => rfl
theorem tsx : Statement (.tsx) := fun _ => rfl
theorem tax : Statement (.tax) := fun _ => rfl
theorem clc : Statement (.clc) := fun _ => rfl
theorem sec : Statement (.sec) := fun _ => rfl
theorem cli : Statement (.cli) := fun _ => rfl
theorem sei : Statement (.sei) := fun _ => rfl
theorem rsp : Statement (.rsp) := fun _ => rfl
theorem nop : Statement (.nop) := fun _ => rfl
theorem txa : Statement (.txa) := fun _ => rfl
theorem sub (src : Src) : Statement (.sub src) := by
  intro; cases src with
  | imm _ => rfl
  | mem ea => cases ea <;> rfl
theorem cmp (src : Src) : Statement (.cmp src) := by
  intro; cases src with
  | imm _ => rfl
  | mem ea => cases ea <;> rfl
theorem sbc (src : Src) : Statement (.sbc src) := by
  intro; cases src with
  | imm _ => rfl
  | mem ea => cases ea <;> rfl
theorem cpx (src : Src) : Statement (.cpx src) := by
  intro; cases src with
  | imm _ => rfl
  | mem ea => cases ea <;> rfl
theorem and (src : Src) : Statement (.and src) := by
  intro; cases src with
  | imm _ => rfl
  | mem ea => cases ea <;> rfl
theorem bit (src : Src) : Statement (.bit src) := by
  intro; cases src with
  | imm _ => rfl
  | mem ea => cases ea <;> rfl
theorem lda (src : Src) : Statement (.lda src) := by
  intro; cases src with
  | imm _ => rfl
  | mem ea => cases ea <;> rfl
theorem ais (ii : Byte) : Statement (.ais ii) := fun _ => rfl
theorem eor (src : Src) : Statement (.eor src) := by
  intro; cases src with
  | imm _ => rfl
  | mem ea => cases ea <;> rfl
theorem adc (src : Src) : Statement (.adc src) := by
  intro; cases src with
  | imm _ => rfl
  | mem ea => cases ea <;> rfl
theorem ora (src : Src) : Statement (.ora src) := by
  intro; cases src with
  | imm _ => rfl
  | mem ea => cases ea <;> rfl
theorem add (src : Src) : Statement (.add src) := by
  intro; cases src with
  | imm _ => rfl
  | mem ea => cases ea <;> rfl
theorem bsr (rr : Byte) : Statement (.bsr rr) := fun _ => rfl
theorem ldx (src : Src) : Statement (.ldx src) := by
  intro; cases src with
  | imm _ => rfl
  | mem ea => cases ea <;> rfl
theorem aix (ii : Byte) : Statement (.aix ii) := fun _ => rfl
theorem sta (ea : Ea) : Statement (.sta ea) := by
  intro; cases ea <;> rfl
theorem jmp (ea : Ea) : Statement (.jmp ea) := by
  intro h; cases ea <;> first | rfl | cases h
theorem jsr (ea : Ea) : Statement (.jsr ea) := by
  intro h; cases ea <;> first | rfl | cases h
theorem stx (ea : Ea) : Statement (.stx ea) := by
  intro; cases ea <;> rfl
theorem asl (ea : Ea) : Statement (.asl ea) := by
  intro h; cases ea <;> first | rfl | cases h
theorem asla : Statement (.asla) := fun _ => rfl
theorem aslx : Statement (.aslx) := fun _ => rfl
theorem bhs (rr : Byte) : Statement (.bhs rr) := fun _ => rfl
theorem blo (rr : Byte) : Statement (.blo rr) := fun _ => rfl

end Sys2Proof.Laws.EncodeLength
end

