-- ==== Sys2Proof/Laws/Run.lean ====
section
/-! SUPPORT. What the end of a run can be. -/

namespace Sys2Proof.Machine

theorem runToEnd_of_ended {s : State} {taken : Nat} (h : s.ended taken = true) (fuel : Nat) :
    s.runToEnd taken fuel = some (.next s) := by
  cases fuel <;> simp [State.runToEnd, h]

/-- A run that answers a next state is over there, after the steps taken to it. -/
theorem runToEnd_eq_next {fuel : Nat} {t : State} : ∀ {s : State} {taken : Nat},
    s.runToEnd taken fuel = some (.next t) → ∃ n, n ≤ fuel ∧ t.ended (taken + n) = true := by
  induction fuel with
  | zero =>
    intro s taken h
    by_cases he : s.ended taken = true
    · rw [runToEnd_of_ended he] at h; cases h; exact ⟨0, Nat.le_refl _, he⟩
    · simp [State.runToEnd, he] at h
  | succ fuel ih =>
    intro s taken h
    by_cases he : s.ended taken = true
    · rw [runToEnd_of_ended he] at h; cases h; exact ⟨0, Nat.zero_le _, he⟩
    · simp only [State.runToEnd, he] at h
      cases hs : step s with
      | next u =>
        obtain ⟨n, hn, ht⟩ := ih (by simpa [hs] using h)
        exact ⟨n + 1, by omega, by rwa [show taken + (n + 1) = taken + 1 + n by omega]⟩
      | fault r => simp [hs] at h
      | refused r => simp [hs] at h

end Sys2Proof.Machine
end

