-- ==== Sys2Proof/Tests/Slice0.lean ====
section
/-! SUPPORT. Tests: decoding of written words, well-formedness, one step on small states (expected values from
95_test_vectors.md, by the vector's name, or worked out by hand from the rule named), and for each obligation with
hypotheses a state that meets them. -/

open Sys2Proof Sys2Proof.Machine

namespace Sys2Proof.Tests

/-! ### Helpers -/

/-- Registers, the flags V H I N Z C and some bytes of memory; everything else as after reset. -/
def cpu (a : Byte) (hx sp pc : Word) (cc : BitVec 6) (mem : List (Word × List Byte)) : State :=
  mem.foldl (fun s p => s.load p.1 p.2)
    { State.reset with
      a := a, h := hiByte hx, x := loByte hx, sp := sp, pc := pc
      ccr := ⟨cc.getLsbD 5, cc.getLsbD 4, cc.getLsbD 3, cc.getLsbD 2, cc.getLsbD 1, cc.getLsbD 0⟩ }

/-- The /IRQ pin at logic 0, its interrupt not enabled. -/
def irqLow (s : State) : State :=
  { s with env := { s.env with irqPin := false }, irqEnable := false }

/-- What a test looks at. -/
structure Seen where
  a : Byte
  hx : Word
  sp : Word
  pc : Word
  cc : BitVec 6
  bytes : List Byte
  deriving DecidableEq, Repr

/-- The next state of an answer, if it has one. -/
def nextOf : Out → Option State
  | .next t => some t
  | .fault _ => none
  | .refused _ => none

/-- The fault of an answer, if it is one. -/
def faultOf : Out → Option Fault
  | .next _ => none
  | .fault f => some f
  | .refused _ => none

/-- Registers, flags and the watched bytes after one step. -/
def after (s : State) (watch : List Word) : Option Seen :=
  (nextOf (step s)).map fun t =>
    ⟨t.a, t.hx, t.sp, t.pc,
      BitVec.ofBool t.ccr.v ++ BitVec.ofBool t.ccr.h ++ BitVec.ofBool t.ccr.i ++ BitVec.ofBool t.ccr.n ++
        BitVec.ofBool t.ccr.z ++ BitVec.ofBool t.ccr.c, watch.map t.peek⟩

/-- PC after one step of a two-byte branch with offset $04 at $2000 under the flags `cc`. -/
def branchPc (op : Byte) (cc : BitVec 6) : Option Word :=
  (nextOf (step (cpu 0 0 0xF0 0x2000 cc [(0x2000, [op, 0x04])]))).map (·.pc)

/-! ### Decoding: words written out from the encodings of 30_encoding.md R82 -/

theorem test_decode_bit :
    decode [0x0E, 0x40, 0x05] = .ok (.brset 7 0x40 0x05) ∧
    decode [0x01, 0x40, 0x05] = .ok (.brclr 0 0x40 0x05) ∧
    decode [0x1C, 0x40] = .ok (.bset 6 0x40) ∧
    decode [0x13, 0x40] = .ok (.bclr 1 0x40) := by decide

theorem test_decode_branch :
    decode [0x20, 0x81] = .ok (.bra 0x81) ∧
    decode [0x21, 0x81] = .ok (.brn 0x81) ∧
    decode [0x22, 0x81] = .ok (.bhi 0x81) ∧
    decode [0x23, 0x81] = .ok (.bls 0x81) ∧
    decode [0x24, 0x81] = .ok (.bcc 0x81) ∧
    decode [0x25, 0x81] = .ok (.bcs 0x81) ∧
    decode [0x26, 0x81] = .ok (.bne 0x81) ∧
    decode [0x27, 0x81] = .ok (.beq 0x81) ∧
    decode [0x28, 0x81] = .ok (.bhcc 0x81) ∧
    decode [0x29, 0x81] = .ok (.bhcs 0x81) ∧
    decode [0x2A, 0x81] = .ok (.bpl 0x81) ∧
    decode [0x2B, 0x81] = .ok (.bmi 0x81) := by decide

theorem test_decode_branch2 :
    decode [0x2C, 0x81] = .ok (.bmc 0x81) ∧
    decode [0x2D, 0x81] = .ok (.bms 0x81) ∧
    decode [0x2E, 0x81] = .ok (.bil 0x81) ∧
    decode [0x2F, 0x81] = .ok (.bih 0x81) ∧
    decode [0x90, 0x81] = .ok (.bge 0x81) ∧
    decode [0x91, 0x81] = .ok (.blt 0x81) ∧
    decode [0x92, 0x81] = .ok (.bgt 0x81) ∧
    decode [0x93, 0x81] = .ok (.ble 0x81) ∧
    decode [0xAD, 0x81] = .ok (.bsr 0x81) := by decide

theorem test_decode_rmw_dir :
    decode [0x30, 0x12] = .ok (.neg (.dir 0x12)) ∧
    decode [0x33, 0x12] = .ok (.com (.dir 0x12)) ∧
    decode [0x34, 0x12] = .ok (.lsr (.dir 0x12)) ∧
    decode [0x36, 0x12] = .ok (.ror (.dir 0x12)) ∧
    decode [0x37, 0x12] = .ok (.asr (.dir 0x12)) ∧
    decode [0x38, 0x12] = .ok (.lsl (.dir 0x12)) ∧
    decode [0x39, 0x12] = .ok (.rol (.dir 0x12)) ∧
    decode [0x3A, 0x12] = .ok (.dec (.dir 0x12)) ∧
    decode [0x3C, 0x12] = .ok (.inc (.dir 0x12)) ∧
    decode [0x3D, 0x12] = .ok (.tst (.dir 0x12)) ∧
    decode [0x3F, 0x12] = .ok (.clr (.dir 0x12)) := by decide

theorem test_decode_rmw_a :
    decode [0x40] = .ok .nega ∧
    decode [0x43] = .ok .coma ∧
    decode [0x44] = .ok .lsra ∧
    decode [0x46] = .ok .rora ∧
    decode [0x47] = .ok .asra ∧
    decode [0x48] = .ok .lsla ∧
    decode [0x49] = .ok .rola ∧
    decode [0x4A] = .ok .deca ∧
    decode [0x4C] = .ok .inca ∧
    decode [0x4D] = .ok .tsta ∧
    decode [0x4F] = .ok .clra := by decide

theorem test_decode_rmw_x :
    decode [0x50] = .ok .negx ∧
    decode [0x53] = .ok .comx ∧
    decode [0x54] = .ok .lsrx ∧
    decode [0x56] = .ok .rorx ∧
    decode [0x57] = .ok .asrx ∧
    decode [0x58] = .ok .lslx ∧
    decode [0x59] = .ok .rolx ∧
    decode [0x5A] = .ok .decx ∧
    decode [0x5C] = .ok .incx ∧
    decode [0x5D] = .ok .tstx ∧
    decode [0x5F] = .ok .clrx := by decide

theorem test_decode_rmw_ix1 :
    decode [0x60, 0x12] = .ok (.neg (.ix1 0x12)) ∧
    decode [0x63, 0x12] = .ok (.com (.ix1 0x12)) ∧
    decode [0x64, 0x12] = .ok (.lsr (.ix1 0x12)) ∧
    decode [0x66, 0x12] = .ok (.ror (.ix1 0x12)) ∧
    decode [0x67, 0x12] = .ok (.asr (.ix1 0x12)) ∧
    decode [0x68, 0x12] = .ok (.lsl (.ix1 0x12)) ∧
    decode [0x69, 0x12] = .ok (.rol (.ix1 0x12)) ∧
    decode [0x6A, 0x12] = .ok (.dec (.ix1 0x12)) ∧
    decode [0x6C, 0x12] = .ok (.inc (.ix1 0x12)) ∧
    decode [0x6D, 0x12] = .ok (.tst (.ix1 0x12)) ∧
    decode [0x6F, 0x12] = .ok (.clr (.ix1 0x12)) := by decide

theorem test_decode_rmw_ix :
    decode [0x70] = .ok (.neg .ix) ∧
    decode [0x73] = .ok (.com .ix) ∧
    decode [0x74] = .ok (.lsr .ix) ∧
    decode [0x76] = .ok (.ror .ix) ∧
    decode [0x77] = .ok (.asr .ix) ∧
    decode [0x78] = .ok (.lsl .ix) ∧
    decode [0x79] = .ok (.rol .ix) ∧
    decode [0x7A] = .ok (.dec .ix) ∧
    decode [0x7C] = .ok (.inc .ix) ∧
    decode [0x7D] = .ok (.tst .ix) ∧
    decode [0x7F] = .ok (.clr .ix) := by decide

theorem test_decode_rmw_sp1 :
    decode [0x9E, 0x60, 0x12] = .ok (.neg (.sp1 0x12)) ∧
    decode [0x9E, 0x63, 0x12] = .ok (.com (.sp1 0x12)) ∧
    decode [0x9E, 0x64, 0x12] = .ok (.lsr (.sp1 0x12)) ∧
    decode [0x9E, 0x66, 0x12] = .ok (.ror (.sp1 0x12)) ∧
    decode [0x9E, 0x67, 0x12] = .ok (.asr (.sp1 0x12)) ∧
    decode [0x9E, 0x68, 0x12] = .ok (.lsl (.sp1 0x12)) ∧
    decode [0x9E, 0x69, 0x12] = .ok (.rol (.sp1 0x12)) ∧
    decode [0x9E, 0x6A, 0x12] = .ok (.dec (.sp1 0x12)) ∧
    decode [0x9E, 0x6C, 0x12] = .ok (.inc (.sp1 0x12)) ∧
    decode [0x9E, 0x6D, 0x12] = .ok (.tst (.sp1 0x12)) ∧
    decode [0x9E, 0x6F, 0x12] = .ok (.clr (.sp1 0x12)) := by decide

theorem test_decode_columns :
    decode [0x31, 0x12, 0x34] = .ok (.cbeq (.dir 0x12) 0x34) ∧
    decode [0x41, 0x12, 0x34] = .ok (.cbeqa 0x12 0x34) ∧
    decode [0x51, 0x12, 0x34] = .ok (.cbeqx 0x12 0x34) ∧
    decode [0x61, 0x12, 0x34] = .ok (.cbeq (.ix1p 0x12) 0x34) ∧
    decode [0x71, 0x34] = .ok (.cbeq .ixp 0x34) ∧
    decode [0x9E, 0x61, 0x12, 0x34] = .ok (.cbeq (.sp1 0x12) 0x34) ∧
    decode [0x3B, 0x12, 0x34] = .ok (.dbnz (.dir 0x12) 0x34) ∧
    decode [0x4B, 0x34] = .ok (.dbnza 0x34) ∧
    decode [0x5B, 0x34] = .ok (.dbnzx 0x34) ∧
    decode [0x6B, 0x12, 0x34] = .ok (.dbnz (.ix1 0x12) 0x34) ∧
    decode [0x7B, 0x34] = .ok (.dbnz .ix 0x34) ∧
    decode [0x9E, 0x6B, 0x12, 0x34] = .ok (.dbnz (.sp1 0x12) 0x34) := by decide

theorem test_decode_columns2 :
    decode [0x65, 0x12, 0x34] = .ok (.cphx (.imm 0x1234)) ∧
    decode [0x75, 0x12] = .ok (.cphx (.dir 0x12)) ∧
    decode [0x45, 0x12, 0x34] = .ok (.ldhx (.imm 0x1234)) ∧
    decode [0x55, 0x12] = .ok (.ldhx (.dir 0x12)) ∧
    decode [0x35, 0x12] = .ok (.sthx 0x12) ∧
    decode [0x42] = .ok .mul ∧
    decode [0x52] = .ok .div ∧
    decode [0x62] = .ok .nsa ∧
    decode [0x72] = .ok .daa ∧
    decode [0x8C] = .ok .clrh ∧
    decode [0x4E, 0x12, 0x34] = .ok (.mov (.dd 0x12 0x34)) ∧
    decode [0x5E, 0x12] = .ok (.mov (.dixp 0x12)) ∧
    decode [0x6E, 0x12, 0x34] = .ok (.mov (.imd 0x12 0x34)) ∧
    decode [0x7E, 0x34] = .ok (.mov (.ixpd 0x34)) := by decide

theorem test_decode_control :
    decode [0x80] = .ok .rti ∧
    decode [0x81] = .ok .rts ∧
    decode [0x83] = .ok .swi ∧
    decode [0x84] = .ok .tap ∧
    decode [0x85] = .ok .tpa ∧
    decode [0x86] = .ok .pula ∧
    decode [0x87] = .ok .psha ∧
    decode [0x88] = .ok .pulx ∧
    decode [0x89] = .ok .pshx ∧
    decode [0x8A] = .ok .pulh ∧
    decode [0x8B] = .ok .pshh ∧
    decode [0x8E] = .ok .stop ∧
    decode [0x8F] = .ok .wait := by decide

theorem test_decode_control2 :
    decode [0x94] = .ok .txs ∧
    decode [0x95] = .ok .tsx ∧
    decode [0x97] = .ok .tax ∧
    decode [0x98] = .ok .clc ∧
    decode [0x99] = .ok .sec ∧
    decode [0x9A] = .ok .cli ∧
    decode [0x9B] = .ok .sei ∧
    decode [0x9C] = .ok .rsp ∧
    decode [0x9D] = .ok .nop ∧
    decode [0x9F] = .ok .txa := by decide

theorem test_decode_reg_imm :
    decode [0xA0, 0x12] = .ok (.sub (.imm 0x12)) ∧
    decode [0xA1, 0x12] = .ok (.cmp (.imm 0x12)) ∧
    decode [0xA2, 0x12] = .ok (.sbc (.imm 0x12)) ∧
    decode [0xA3, 0x12] = .ok (.cpx (.imm 0x12)) ∧
    decode [0xA4, 0x12] = .ok (.and (.imm 0x12)) ∧
    decode [0xA5, 0x12] = .ok (.bit (.imm 0x12)) ∧
    decode [0xA6, 0x12] = .ok (.lda (.imm 0x12)) ∧
    decode [0xA8, 0x12] = .ok (.eor (.imm 0x12)) ∧
    decode [0xA9, 0x12] = .ok (.adc (.imm 0x12)) ∧
    decode [0xAA, 0x12] = .ok (.ora (.imm 0x12)) ∧
    decode [0xAB, 0x12] = .ok (.add (.imm 0x12)) ∧
    decode [0xAE, 0x12] = .ok (.ldx (.imm 0x12)) ∧
    decode [0xA7, 0x12] = .ok (.ais 0x12) ∧
    decode [0xAF, 0x12] = .ok (.aix 0x12) := by decide

theorem test_decode_reg_ext :
    decode [0xC0, 0x12, 0x34] = .ok (.sub (.mem (.ext 0x1234))) ∧
    decode [0xC1, 0x12, 0x34] = .ok (.cmp (.mem (.ext 0x1234))) ∧
    decode [0xC2, 0x12, 0x34] = .ok (.sbc (.mem (.ext 0x1234))) ∧
    decode [0xC3, 0x12, 0x34] = .ok (.cpx (.mem (.ext 0x1234))) ∧
    decode [0xC4, 0x12, 0x34] = .ok (.and (.mem (.ext 0x1234))) ∧
    decode [0xC5, 0x12, 0x34] = .ok (.bit (.mem (.ext 0x1234))) ∧
    decode [0xC6, 0x12, 0x34] = .ok (.lda (.mem (.ext 0x1234))) ∧
    decode [0xC8, 0x12, 0x34] = .ok (.eor (.mem (.ext 0x1234))) ∧
    decode [0xC9, 0x12, 0x34] = .ok (.adc (.mem (.ext 0x1234))) ∧
    decode [0xCA, 0x12, 0x34] = .ok (.ora (.mem (.ext 0x1234))) ∧
    decode [0xCB, 0x12, 0x34] = .ok (.add (.mem (.ext 0x1234))) ∧
    decode [0xCE, 0x12, 0x34] = .ok (.ldx (.mem (.ext 0x1234))) := by decide

theorem test_decode_reg_sp2 :
    decode [0x9E, 0xD0, 0x12, 0x34] = .ok (.sub (.mem (.sp2 0x1234))) ∧
    decode [0x9E, 0xD1, 0x12, 0x34] = .ok (.cmp (.mem (.sp2 0x1234))) ∧
    decode [0x9E, 0xD2, 0x12, 0x34] = .ok (.sbc (.mem (.sp2 0x1234))) ∧
    decode [0x9E, 0xD3, 0x12, 0x34] = .ok (.cpx (.mem (.sp2 0x1234))) ∧
    decode [0x9E, 0xD4, 0x12, 0x34] = .ok (.and (.mem (.sp2 0x1234))) ∧
    decode [0x9E, 0xD5, 0x12, 0x34] = .ok (.bit (.mem (.sp2 0x1234))) ∧
    decode [0x9E, 0xD6, 0x12, 0x34] = .ok (.lda (.mem (.sp2 0x1234))) ∧
    decode [0x9E, 0xD8, 0x12, 0x34] = .ok (.eor (.mem (.sp2 0x1234))) ∧
    decode [0x9E, 0xD9, 0x12, 0x34] = .ok (.adc (.mem (.sp2 0x1234))) ∧
    decode [0x9E, 0xDA, 0x12, 0x34] = .ok (.ora (.mem (.sp2 0x1234))) ∧
    decode [0x9E, 0xDB, 0x12, 0x34] = .ok (.add (.mem (.sp2 0x1234))) ∧
    decode [0x9E, 0xDE, 0x12, 0x34] = .ok (.ldx (.mem (.sp2 0x1234))) := by decide

theorem test_decode_reg_store_jump :
    decode [0xB7, 0x12] = .ok (.sta (.dir 0x12)) ∧
    decode [0xBF, 0x12] = .ok (.stx (.dir 0x12)) ∧
    decode [0xBC, 0x12] = .ok (.jmp (.dir 0x12)) ∧
    decode [0xBD, 0x12] = .ok (.jsr (.dir 0x12)) ∧
    decode [0xC7, 0x12, 0x34] = .ok (.sta (.ext 0x1234)) ∧
    decode [0xCF, 0x12, 0x34] = .ok (.stx (.ext 0x1234)) ∧
    decode [0xCC, 0x12, 0x34] = .ok (.jmp (.ext 0x1234)) ∧
    decode [0xCD, 0x12, 0x34] = .ok (.jsr (.ext 0x1234)) ∧
    decode [0xD7, 0x12, 0x34] = .ok (.sta (.ix2 0x1234)) ∧
    decode [0xDF, 0x12, 0x34] = .ok (.stx (.ix2 0x1234)) ∧
    decode [0xDC, 0x12, 0x34] = .ok (.jmp (.ix2 0x1234)) ∧
    decode [0xDD, 0x12, 0x34] = .ok (.jsr (.ix2 0x1234)) ∧
    decode [0xE7, 0x12] = .ok (.sta (.ix1 0x12)) ∧
    decode [0xEF, 0x12] = .ok (.stx (.ix1 0x12)) ∧
    decode [0xEC, 0x12] = .ok (.jmp (.ix1 0x12)) ∧
    decode [0xED, 0x12] = .ok (.jsr (.ix1 0x12)) ∧
    decode [0xF7] = .ok (.sta .ix) ∧
    decode [0xFF] = .ok (.stx .ix) ∧
    decode [0xFC] = .ok (.jmp .ix) ∧
    decode [0xFD] = .ok (.jsr .ix) ∧
    decode [0x9E, 0xE7, 0x12] = .ok (.sta (.sp1 0x12)) ∧
    decode [0x9E, 0xDF, 0x12, 0x34] = .ok (.stx (.sp2 0x1234)) := by decide

theorem test_decode_reg_modes :
    decode [0xB6, 0x12] = .ok (.lda (.mem (.dir 0x12))) ∧
    decode [0xC6, 0x12, 0x34] = .ok (.lda (.mem (.ext 0x1234))) ∧
    decode [0xD6, 0x12, 0x34] = .ok (.lda (.mem (.ix2 0x1234))) ∧
    decode [0xE6, 0x12] = .ok (.lda (.mem (.ix1 0x12))) ∧
    decode [0xF6] = .ok (.lda (.mem .ix)) ∧
    decode [0x9E, 0xE6, 0x12] = .ok (.lda (.mem (.sp1 0x12))) := by decide

/-- The second names have the words of the core instructions (R103), which decode to those. -/
theorem test_decode_second_names :
    encode (.asl (.dir 0x12)) = [0x38, 0x12] ∧ encode .asla = [0x48] ∧ encode .aslx = [0x58] ∧
    encode (.bhs 0x04) = [0x24, 0x04] ∧ encode (.blo 0x04) = [0x25, 0x04] := by decide

/-- The bits of a table word: the first byte is the most significant of the number (log 30). -/
theorem test_decodeTableWord :
    decodeTableWord 24 0x0E4005 = some (.brset 7 0x40 0x05) ∧ decodeTableWord 8 0x83 = some .swi ∧
    decodeTableWord 8 0x82 = none := by decide

/-! ### Well-formedness: a form that the instruction does not have is refused (R107) -/

theorem test_wellFormed_neg :
    Instr.wellFormed (.neg (.ext 0x1234)) = false ∧ Instr.wellFormed (.neg (.ix2 0x1234)) = false ∧
    Instr.wellFormed (.neg (.sp2 0x1234)) = false ∧ encode (.neg (.ext 0x1234)) = [] := by decide

theorem test_wellFormed_com :
    Instr.wellFormed (.com (.ext 0x1234)) = false ∧ Instr.wellFormed (.com (.ix2 0x1234)) = false ∧
    Instr.wellFormed (.com (.sp2 0x1234)) = false ∧ encode (.com (.ext 0x1234)) = [] := by decide

theorem test_wellFormed_lsr :
    Instr.wellFormed (.lsr (.ext 0x1234)) = false ∧ Instr.wellFormed (.lsr (.ix2 0x1234)) = false ∧
    Instr.wellFormed (.lsr (.sp2 0x1234)) = false ∧ encode (.lsr (.ext 0x1234)) = [] := by decide

theorem test_wellFormed_ror :
    Instr.wellFormed (.ror (.ext 0x1234)) = false ∧ Instr.wellFormed (.ror (.ix2 0x1234)) = false ∧
    Instr.wellFormed (.ror (.sp2 0x1234)) = false ∧ encode (.ror (.ext 0x1234)) = [] := by decide

theorem test_wellFormed_asr :
    Instr.wellFormed (.asr (.ext 0x1234)) = false ∧ Instr.wellFormed (.asr (.ix2 0x1234)) = false ∧
    Instr.wellFormed (.asr (.sp2 0x1234)) = false ∧ encode (.asr (.ext 0x1234)) = [] := by decide

theorem test_wellFormed_lsl :
    Instr.wellFormed (.lsl (.ext 0x1234)) = false ∧ Instr.wellFormed (.lsl (.ix2 0x1234)) = false ∧
    Instr.wellFormed (.lsl (.sp2 0x1234)) = false ∧ encode (.lsl (.ext 0x1234)) = [] := by decide

theorem test_wellFormed_asl :
    Instr.wellFormed (.asl (.ext 0x1234)) = false ∧ Instr.wellFormed (.asl (.ix2 0x1234)) = false ∧
    Instr.wellFormed (.asl (.sp2 0x1234)) = false ∧ encode (.asl (.ext 0x1234)) = [] := by decide

theorem test_wellFormed_rol :
    Instr.wellFormed (.rol (.ext 0x1234)) = false ∧ Instr.wellFormed (.rol (.ix2 0x1234)) = false ∧
    Instr.wellFormed (.rol (.sp2 0x1234)) = false ∧ encode (.rol (.ext 0x1234)) = [] := by decide

theorem test_wellFormed_dec :
    Instr.wellFormed (.dec (.ext 0x1234)) = false ∧ Instr.wellFormed (.dec (.ix2 0x1234)) = false ∧
    Instr.wellFormed (.dec (.sp2 0x1234)) = false ∧ encode (.dec (.ext 0x1234)) = [] := by decide

theorem test_wellFormed_inc :
    Instr.wellFormed (.inc (.ext 0x1234)) = false ∧ Instr.wellFormed (.inc (.ix2 0x1234)) = false ∧
    Instr.wellFormed (.inc (.sp2 0x1234)) = false ∧ encode (.inc (.ext 0x1234)) = [] := by decide

theorem test_wellFormed_tst :
    Instr.wellFormed (.tst (.ext 0x1234)) = false ∧ Instr.wellFormed (.tst (.ix2 0x1234)) = false ∧
    Instr.wellFormed (.tst (.sp2 0x1234)) = false ∧ encode (.tst (.ext 0x1234)) = [] := by decide

theorem test_wellFormed_clr :
    Instr.wellFormed (.clr (.ext 0x1234)) = false ∧ Instr.wellFormed (.clr (.ix2 0x1234)) = false ∧
    Instr.wellFormed (.clr (.sp2 0x1234)) = false ∧ encode (.clr (.ext 0x1234)) = [] := by decide

theorem test_wellFormed_dbnz :
    Instr.wellFormed (.dbnz (.ext 0x1234) 0x04) = false ∧ Instr.wellFormed (.dbnz (.ix2 0x1234) 0x04) = false ∧
    Instr.wellFormed (.dbnz (.sp2 0x1234) 0x04) = false := by decide

theorem test_wellFormed_jmp :
    Instr.wellFormed (.jmp (.sp1 0x12)) = false ∧ Instr.wellFormed (.jmp (.sp2 0x1234)) = false := by decide

theorem test_wellFormed_jsr :
    Instr.wellFormed (.jsr (.sp1 0x12)) = false ∧ Instr.wellFormed (.jsr (.sp2 0x1234)) = false := by decide

/-! ### One step -/

/-- V173. -/
theorem test_bset_bit7 :
    after (cpu 0x11 0x2233 0x01F0 0x2000 0b000000 [(0x2000, [0x1E, 0x40]), (0x0040, [0x00])]) [0x0040] =
      some ⟨0x11, 0x2233, 0x01F0, 0x2002, 0b000000, [0x80]⟩ := by decide

/-- V181. -/
theorem test_bclr_bit7 :
    after (cpu 0x11 0x2233 0x01F0 0x2000 0b000000 [(0x2000, [0x1F, 0x40]), (0x0040, [0xFF])]) [0x0040] =
      some ⟨0x11, 0x2233, 0x01F0, 0x2002, 0b000000, [0x7F]⟩ := by decide

/-- V185. -/
theorem test_brset_taken :
    after (cpu 0x11 0x2233 0x01F0 0x2000 0b000000 [(0x2000, [0x0E, 0x40, 0x05]), (0x0040, [0x80])]) [] =
      some ⟨0x11, 0x2233, 0x01F0, 0x2008, 0b000001, []⟩ := by decide

/-- V186. -/
theorem test_brset_not_taken_clears_c :
    after (cpu 0x11 0x2233 0x01F0 0x2000 0b000001 [(0x2000, [0x0E, 0x40, 0x05]), (0x0040, [0x7F])]) [] =
      some ⟨0x11, 0x2233, 0x01F0, 0x2003, 0b000000, []⟩ := by decide

/-- V190. -/
theorem test_brclr_not_taken_sets_c :
    after (cpu 0x11 0x2233 0x01F0 0x2000 0b000000 [(0x2000, [0x0F, 0x40, 0x05]), (0x0040, [0x80])]) [] =
      some ⟨0x11, 0x2233, 0x01F0, 0x2003, 0b000001, []⟩ := by decide

/-- V192. -/
theorem test_brclr_backward :
    after (cpu 0x11 0x2233 0x01F0 0x2000 0b000000 [(0x2000, [0x0F, 0x40, 0xFD]), (0x0040, [0x00])]) [] =
      some ⟨0x11, 0x2233, 0x01F0, 0x2000, 0b000000, []⟩ := by decide

/-- V157. -/
theorem test_bra_backward :
    after (cpu 0x11 0x2233 0x01F0 0x2000 0b000000 [(0x2000, [0x20, 0x80])]) [] =
      some ⟨0x11, 0x2233, 0x01F0, 0x1F82, 0b000000, []⟩ := by decide

/-- V161. -/
theorem test_bra_wraps :
    after (cpu 0x11 0x2233 0x01F0 0x0004 0b000000 [(0x0004, [0x20, 0xF0])]) [] =
      some ⟨0x11, 0x2233, 0x01F0, 0xFFF6, 0b000000, []⟩ := by decide

/-- V162. -/
theorem test_brn :
    after (cpu 0x11 0x2233 0x01F0 0x2000 0b000000 [(0x2000, [0x21, 0x7F])]) [] =
      some ⟨0x11, 0x2233, 0x01F0, 0x2002, 0b000000, []⟩ := by decide

/-- V165. -/
theorem test_bsr_wraps :
    after (cpu 0x11 0x2233 0x0000 0x2000 0b000000 [(0x2000, [0xAD, 0x02])]) [0x0000, 0xFFFF] =
      some ⟨0x11, 0x2233, 0xFFFE, 0x2004, 0b000000, [0x02, 0x20]⟩ := by decide

/-- V164. -/
theorem test_bsr_backward :
    after (cpu 0x11 0x2233 0x01FF 0x3000 0b000000 [(0x3000, [0xAD, 0xFC])]) [0x01FF, 0x01FE] =
      some ⟨0x11, 0x2233, 0x01FD, 0x2FFE, 0b000000, [0x02, 0x30]⟩ := by decide

/-- V312. -/
theorem test_bih_high :
    after (cpu 0x11 0x2233 0x01F0 0x2000 0b000000 [(0x2000, [0x2F, 0x04])]) [] =
      some ⟨0x11, 0x2233, 0x01F0, 0x2006, 0b000000, []⟩ := by decide

/-- V313. -/
theorem test_bih_low :
    after (irqLow (cpu 0x11 0x2233 0x01F0 0x2000 0b000000 [(0x2000, [0x2F, 0x04])])) [] =
      some ⟨0x11, 0x2233, 0x01F0, 0x2002, 0b000000, []⟩ := by decide

/-- V314. -/
theorem test_bil_low :
    after (irqLow (cpu 0x11 0x2233 0x01F0 0x2000 0b000000 [(0x2000, [0x2E, 0x04])])) [] =
      some ⟨0x11, 0x2233, 0x01F0, 0x2006, 0b000000, []⟩ := by decide

/-- V315. -/
theorem test_bil_high :
    after (cpu 0x11 0x2233 0x01F0 0x2000 0b000000 [(0x2000, [0x2E, 0x04])]) [] =
      some ⟨0x11, 0x2233, 0x01F0, 0x2002, 0b000000, []⟩ := by decide

/-- V2. -/
theorem test_add_half_carry_and_overflow :
    after (cpu 0x7F 0x2233 0x01F0 0x2000 0b000000 [(0x2000, [0xAB, 0x01])]) [] =
      some ⟨0x80, 0x2233, 0x01F0, 0x2002, 0b110100, []⟩ := by decide

/-- V16. -/
theorem test_add_keeps_i :
    after (cpu 0x01 0x2233 0x01F0 0x2000 0b111111 [(0x2000, [0xAB, 0x01])]) [] =
      some ⟨0x02, 0x2233, 0x01F0, 0x2002, 0b001000, []⟩ := by decide

/-- V10. -/
theorem test_adc_carry_in :
    after (cpu 0xFF 0x2233 0x01F0 0x2000 0b000001 [(0x2000, [0xA9, 0x00])]) [] =
      some ⟨0x00, 0x2233, 0x01F0, 0x2002, 0b010011, []⟩ := by decide

/-- V15. -/
theorem test_adc_both_carries :
    after (cpu 0x00 0x2233 0x01F0 0x2000 0b000001 [(0x2000, [0xA9, 0xFF])]) [] =
      some ⟨0x00, 0x2233, 0x01F0, 0x2002, 0b010011, []⟩ := by decide

/-- V18. -/
theorem test_sub_overflow :
    after (cpu 0x80 0x2233 0x01F0 0x2000 0b010000 [(0x2000, [0xA0, 0x01])]) [] =
      some ⟨0x7F, 0x2233, 0x01F0, 0x2002, 0b110000, []⟩ := by decide

/-- V21. -/
theorem test_sub_borrow :
    after (cpu 0x00 0x2233 0x01F0 0x2000 0b010000 [(0x2000, [0xA0, 0x80])]) [] =
      some ⟨0x80, 0x2233, 0x01F0, 0x2002, 0b110101, []⟩ := by decide

/-- V25. -/
theorem test_sbc_overflow :
    after (cpu 0x80 0x2233 0x01F0 0x2000 0b010001 [(0x2000, [0xA2, 0x7F])]) [] =
      some ⟨0x00, 0x2233, 0x01F0, 0x2002, 0b110010, []⟩ := by decide

/-- V28. -/
theorem test_sbc_double_borrow :
    after (cpu 0x00 0x2233 0x01F0 0x2000 0b010001 [(0x2000, [0xA2, 0xFF])]) [] =
      some ⟨0x00, 0x2233, 0x01F0, 0x2002, 0b010011, []⟩ := by decide

/-- V32. -/
theorem test_cmp_signed :
    after (cpu 0x80 0x2233 0x01F0 0x2000 0b000000 [(0x2000, [0xA1, 0x7F])]) [] =
      some ⟨0x80, 0x2233, 0x01F0, 0x2002, 0b100000, []⟩ := by decide

/-- V33. -/
theorem test_cmp_borrow :
    after (cpu 0x7F 0x2233 0x01F0 0x2000 0b000000 [(0x2000, [0xA1, 0x80])]) [] =
      some ⟨0x7F, 0x2233, 0x01F0, 0x2002, 0b100101, []⟩ := by decide

/-- V36. -/
theorem test_cpx_low_byte :
    after (cpu 0x11 0x45FF 0x01F0 0x2000 0b000000 [(0x2000, [0xA3, 0x00])]) [] =
      some ⟨0x11, 0x45FF, 0x01F0, 0x2002, 0b000100, []⟩ := by decide

/-- V67. -/
theorem test_cpx_ext :
    after (cpu 0x11 0x0010 0x01F0 0x2000 0b000000 [(0x2000, [0xC3, 0x12, 0x34]), (0x1234, [0x20])]) [] =
      some ⟨0x11, 0x0010, 0x01F0, 0x2003, 0b000101, []⟩ := by decide

/-- V37. -/
theorem test_and_keeps_c :
    after (cpu 0x0F 0x2233 0x01F0 0x2000 0b110001 [(0x2000, [0xA4, 0xF0])]) [] =
      some ⟨0x00, 0x2233, 0x01F0, 0x2002, 0b010011, []⟩ := by decide

/-- V40. -/
theorem test_bit_clears_v :
    after (cpu 0x80 0x2233 0x01F0 0x2000 0b100000 [(0x2000, [0xA5, 0x80])]) [] =
      some ⟨0x80, 0x2233, 0x01F0, 0x2002, 0b000100, []⟩ := by decide

/-- V42. -/
theorem test_eor_zero :
    after (cpu 0xFF 0x2233 0x01F0 0x2000 0b100001 [(0x2000, [0xA8, 0xFF])]) [] =
      some ⟨0x00, 0x2233, 0x01F0, 0x2002, 0b000011, []⟩ := by decide

/-- V44. -/
theorem test_ora_negative :
    after (cpu 0x0F 0x2233 0x01F0 0x2000 0b100000 [(0x2000, [0xAA, 0x80])]) [] =
      some ⟨0x8F, 0x2233, 0x01F0, 0x2002, 0b000100, []⟩ := by decide

/-- V57. -/
theorem test_lda_offset_unsigned :
    after (cpu 0x11 0x0100 0x01F0 0x2000 0b000000 [(0x2000, [0xE6, 0x80]), (0x0080, [0x99]), (0x0180, [0x55])]) [] =
      some ⟨0x55, 0x0100, 0x01F0, 0x2002, 0b000000, []⟩ := by decide

/-- V62. -/
theorem test_lda_sp2 :
    after (cpu 0x11 0x2233 0x00F0 0x2000 0b000000 [(0x2000, [0x9E, 0xD6, 0x01, 0x00]), (0x01F0, [0x7F])]) [] =
      some ⟨0x7F, 0x2233, 0x00F0, 0x2004, 0b000000, []⟩ := by decide

/-- V63. -/
theorem test_ldx_old_index :
    after (cpu 0x11 0x0180 0x01F0 0x2000 0b000000 [(0x2000, [0xFE]), (0x0180, [0x05])]) [] =
      some ⟨0x11, 0x0105, 0x01F0, 0x2001, 0b000000, []⟩ := by decide

/-- V64. -/
theorem test_sta_ix2 :
    after (cpu 0xAB 0x0010 0x01F0 0x2000 0b000000 [(0x2000, [0xD7, 0x10, 0x00])]) [0x1010] =
      some ⟨0xAB, 0x0010, 0x01F0, 0x2003, 0b000100, [0xAB]⟩ := by decide

/-- V65. -/
theorem test_stx_sp1 :
    after (cpu 0x11 0x4502 0x00F0 0x2000 0b000000 [(0x2000, [0x9E, 0xEF, 0x02])]) [0x00F2] =
      some ⟨0x11, 0x4502, 0x00F0, 0x2003, 0b000000, [0x02]⟩ := by decide

/-- V70. -/
theorem test_jmp_ix2 :
    after (cpu 0x11 0x0020 0x01F0 0x2000 0b000000 [(0x2000, [0xDC, 0x10, 0x00])]) [] =
      some ⟨0x11, 0x0020, 0x01F0, 0x1020, 0b000000, []⟩ := by decide

/-- V284. -/
theorem test_jsr_ix :
    after (cpu 0x11 0x4502 0x00F0 0x2000 0b000000 [(0x2000, [0xFD])]) [0x00F0, 0x00EF] =
      some ⟨0x11, 0x4502, 0x00EE, 0x4502, 0b000000, [0x01, 0x20]⟩ := by decide

/-- V280. -/
theorem test_jsr_ext :
    after (cpu 0x11 0x2233 0x00F0 0x2000 0b000000 [(0x2000, [0xCD, 0x10, 0x00])]) [0x00F0, 0x00EF] =
      some ⟨0x11, 0x2233, 0x00EE, 0x1000, 0b000000, [0x03, 0x20]⟩ := by decide

/-- V75. -/
theorem test_nega_overflow :
    after (cpu 0x80 0x2233 0x01F0 0x2000 0b000000 [(0x2000, [0x40])]) [] =
      some ⟨0x80, 0x2233, 0x01F0, 0x2001, 0b100101, []⟩ := by decide

/-- V81. -/
theorem test_coma :
    after (cpu 0xFF 0x2233 0x01F0 0x2000 0b000000 [(0x2000, [0x43])]) [] =
      some ⟨0x00, 0x2233, 0x01F0, 0x2001, 0b000011, []⟩ := by decide

/-- V84. -/
theorem test_lsra :
    after (cpu 0x7F 0x2233 0x01F0 0x2000 0b000000 [(0x2000, [0x44])]) [] =
      some ⟨0x3F, 0x2233, 0x01F0, 0x2001, 0b100001, []⟩ := by decide

/-- V88. -/
theorem test_rora :
    after (cpu 0x00 0x2233 0x01F0 0x2000 0b000001 [(0x2000, [0x46])]) [] =
      some ⟨0x80, 0x2233, 0x01F0, 0x2001, 0b100100, []⟩ := by decide

/-- V100. -/
theorem test_asra :
    after (cpu 0x80 0x2233 0x01F0 0x2000 0b000000 [(0x2000, [0x47])]) [] =
      some ⟨0xC0, 0x2233, 0x01F0, 0x2001, 0b100100, []⟩ := by decide

/-- V105. -/
theorem test_lsla :
    after (cpu 0x80 0x2233 0x01F0 0x2000 0b000000 [(0x2000, [0x48])]) [] =
      some ⟨0x00, 0x2233, 0x01F0, 0x2001, 0b100011, []⟩ := by decide

/-- V114. -/
theorem test_rola :
    after (cpu 0x80 0x2233 0x01F0 0x2000 0b000001 [(0x2000, [0x49])]) [] =
      some ⟨0x01, 0x2233, 0x01F0, 0x2001, 0b100001, []⟩ := by decide

/-- V120. -/
theorem test_deca_overflow :
    after (cpu 0x80 0x2233 0x01F0 0x2000 0b000001 [(0x2000, [0x4A])]) [] =
      some ⟨0x7F, 0x2233, 0x01F0, 0x2001, 0b100001, []⟩ := by decide

/-- V124. -/
theorem test_inca_overflow :
    after (cpu 0x7F 0x2233 0x01F0 0x2000 0b000001 [(0x2000, [0x4C])]) [] =
      some ⟨0x80, 0x2233, 0x01F0, 0x2001, 0b100101, []⟩ := by decide

/-- V130. -/
theorem test_tsta_keeps_c :
    after (cpu 0x80 0x2233 0x01F0 0x2000 0b000001 [(0x2000, [0x4D])]) [] =
      some ⟨0x80, 0x2233, 0x01F0, 0x2001, 0b000101, []⟩ := by decide

/-- V132. -/
theorem test_clra_keeps_c :
    after (cpu 0x00 0x2233 0x01F0 0x2000 0b000001 [(0x2000, [0x4F])]) [] =
      some ⟨0x00, 0x2233, 0x01F0, 0x2001, 0b000011, []⟩ := by decide

/-- V137. -/
theorem test_negx :
    after (cpu 0x11 0x1201 0x01F0 0x2000 0b000000 [(0x2000, [0x50])]) [] =
      some ⟨0x11, 0x12FF, 0x01F0, 0x2001, 0b000101, []⟩ := by decide

/-- V138. -/
theorem test_incx_no_carry_into_h :
    after (cpu 0x11 0x12FF 0x01F0 0x2000 0b000000 [(0x2000, [0x5C])]) [] =
      some ⟨0x11, 0x1200, 0x01F0, 0x2001, 0b000010, []⟩ := by decide

/-- V139. -/
theorem test_decx_no_borrow_from_h :
    after (cpu 0x11 0x1200 0x01F0 0x2000 0b000000 [(0x2000, [0x5A])]) [] =
      some ⟨0x11, 0x12FF, 0x01F0, 0x2001, 0b000100, []⟩ := by decide

/-- V140. -/
theorem test_clrx :
    after (cpu 0x11 0x1234 0x01F0 0x2000 0b100100 [(0x2000, [0x5F])]) [] =
      some ⟨0x11, 0x1200, 0x01F0, 0x2001, 0b000010, []⟩ := by decide

/-- V141. -/
theorem test_clrh :
    after (cpu 0x11 0x1234 0x01F0 0x2000 0b100101 [(0x2000, [0x8C])]) [] =
      some ⟨0x11, 0x0034, 0x01F0, 0x2001, 0b000011, []⟩ := by decide

/-- V142. -/
theorem test_lslx :
    after (cpu 0x11 0x0081 0x01F0 0x2000 0b000000 [(0x2000, [0x58])]) [] =
      some ⟨0x11, 0x0002, 0x01F0, 0x2001, 0b100001, []⟩ := by decide

/-- V143. -/
theorem test_inc_dir :
    after (cpu 0x11 0x2233 0x01F0 0x2000 0b000000 [(0x2000, [0x3C, 0x40]), (0x0040, [0x7F])]) [0x0040] =
      some ⟨0x11, 0x2233, 0x01F0, 0x2002, 0b100100, [0x80]⟩ := by decide

/-- V144. -/
theorem test_dec_ix1 :
    after (cpu 0x11 0x0100 0x01F0 0x2000 0b000000 [(0x2000, [0x6A, 0x10]), (0x0110, [0x01])]) [0x0110] =
      some ⟨0x11, 0x0100, 0x01F0, 0x2002, 0b000010, [0x00]⟩ := by decide

/-- V145. -/
theorem test_neg_ix :
    after (cpu 0x11 0x0100 0x01F0 0x2000 0b000000 [(0x2000, [0x70]), (0x0100, [0x01])]) [0x0100] =
      some ⟨0x11, 0x0100, 0x01F0, 0x2001, 0b000101, [0xFF]⟩ := by decide

/-- V146. -/
theorem test_com_sp1 :
    after (cpu 0x11 0x2233 0x00F0 0x2000 0b000000 [(0x2000, [0x9E, 0x63, 0x02]), (0x00F2, [0xF0])]) [0x00F2] =
      some ⟨0x11, 0x2233, 0x00F0, 0x2003, 0b000001, [0x0F]⟩ := by decide

/-- V147. -/
theorem test_lsl_dir :
    after (cpu 0x11 0x2233 0x01F0 0x2000 0b000000 [(0x2000, [0x38, 0x40]), (0x0040, [0xC0])]) [0x0040] =
      some ⟨0x11, 0x2233, 0x01F0, 0x2002, 0b000101, [0x80]⟩ := by decide

/-- V148. -/
theorem test_lsr_dir :
    after (cpu 0x11 0x2233 0x01F0 0x2000 0b000000 [(0x2000, [0x34, 0x40]), (0x0040, [0x01])]) [0x0040] =
      some ⟨0x11, 0x2233, 0x01F0, 0x2002, 0b100011, [0x00]⟩ := by decide

/-- V149. -/
theorem test_rol_ix :
    after (cpu 0x11 0x0050 0x01F0 0x2000 0b000001 [(0x2000, [0x79]), (0x0050, [0x80])]) [0x0050] =
      some ⟨0x11, 0x0050, 0x01F0, 0x2001, 0b100001, [0x01]⟩ := by decide

/-- V150. -/
theorem test_ror_sp1 :
    after (cpu 0x11 0x2233 0x00F0 0x2000 0b000000 [(0x2000, [0x9E, 0x66, 0x01]), (0x00F1, [0x01])]) [0x00F1] =
      some ⟨0x11, 0x2233, 0x00F0, 0x2003, 0b100011, [0x00]⟩ := by decide

/-- V151. -/
theorem test_asr_ix1 :
    after (cpu 0x11 0x0001 0x01F0 0x2000 0b000000 [(0x2000, [0x67, 0xFF]), (0x0100, [0x81])]) [0x0100] =
      some ⟨0x11, 0x0001, 0x01F0, 0x2002, 0b000101, [0xC0]⟩ := by decide

/-- V152. -/
theorem test_tst_dir :
    after (cpu 0x11 0x2233 0x01F0 0x2000 0b100001 [(0x2000, [0x3D, 0x40]), (0x0040, [0x80])]) [] =
      some ⟨0x11, 0x2233, 0x01F0, 0x2002, 0b000101, []⟩ := by decide

/-- V154. -/
theorem test_clr_dir :
    after (cpu 0x11 0x2233 0x01F0 0x2000 0b100101 [(0x2000, [0x3F, 0x40]), (0x0040, [0x99])]) [0x0040] =
      some ⟨0x11, 0x2233, 0x01F0, 0x2002, 0b000011, [0x00]⟩ := by decide

/-- V194. -/
theorem test_cbeq_dir_not_equal :
    after (cpu 0x55 0x2233 0x01F0 0x2000 0b101010 [(0x2000, [0x31, 0x40, 0x04]), (0x0040, [0x54])]) [] =
      some ⟨0x55, 0x2233, 0x01F0, 0x2003, 0b101010, []⟩ := by decide

/-- V203. -/
theorem test_cbeq_ixp_wraps :
    after (cpu 0x01 0xFFFF 0x01F0 0x2000 0b000000 [(0x2000, [0x71, 0x09]), (0xFFFF, [0x01])]) [] =
      some ⟨0x01, 0x0000, 0x01F0, 0x200B, 0b000000, []⟩ := by decide

/-- V195. -/
theorem test_cbeqa_backward :
    after (cpu 0x55 0x2233 0x01F0 0x2000 0b000000 [(0x2000, [0x41, 0x55, 0xFD])]) [] =
      some ⟨0x55, 0x2233, 0x01F0, 0x2000, 0b000000, []⟩ := by decide

/-- V198. -/
theorem test_cbeqx_compares_x :
    after (cpu 0x00 0x4502 0x01F0 0x2000 0b000000 [(0x2000, [0x51, 0x45, 0x10])]) [] =
      some ⟨0x00, 0x4502, 0x01F0, 0x2003, 0b000000, []⟩ := by decide

/-- V206. -/
theorem test_dbnz_not_taken_still_writes :
    after (cpu 0x11 0x2233 0x01F0 0x2000 0b000000 [(0x2000, [0x3B, 0x40, 0xFD]), (0x0040, [0x01])]) [0x0040] =
      some ⟨0x11, 0x2233, 0x01F0, 0x2003, 0b000000, [0x00]⟩ := by decide

/-- V213. -/
theorem test_dbnz_sp1 :
    after (cpu 0x11 0x2233 0x00F0 0x2000 0b000000 [(0x2000, [0x9E, 0x6B, 0x01, 0xFC]), (0x00F1, [0x03])]) [0x00F1] =
      some ⟨0x11, 0x2233, 0x00F0, 0x2000, 0b000000, [0x02]⟩ := by decide

/-- V209. -/
theorem test_dbnza_not_taken :
    after (cpu 0x01 0x2233 0x01F0 0x2000 0b000000 [(0x2000, [0x4B, 0x04])]) [] =
      some ⟨0x00, 0x2233, 0x01F0, 0x2002, 0b000000, []⟩ := by decide

/-- V210. -/
theorem test_dbnzx_keeps_h :
    after (cpu 0x11 0x1200 0x01F0 0x2000 0b000000 [(0x2000, [0x5B, 0xFE])]) [] =
      some ⟨0x11, 0x12FF, 0x01F0, 0x2000, 0b000000, []⟩ := by decide

/-- V234. -/
theorem test_mul_largest :
    after (cpu 0xFF 0x12FF 0x01F0 0x2000 0b010001 [(0x2000, [0x42])]) [] =
      some ⟨0x01, 0x12FE, 0x01F0, 0x2001, 0b000000, []⟩ := by decide

/-- V239. -/
theorem test_div_largest :
    after (cpu 0x01 0xFEFF 0x01F0 0x2000 0b000000 [(0x2000, [0x52])]) [] =
      some ⟨0xFF, 0x00FF, 0x01F0, 0x2001, 0b000000, []⟩ := by decide

/-- V238. -/
theorem test_div_zero_quotient :
    after (cpu 0x03 0x0004 0x01F0 0x2000 0b000000 [(0x2000, [0x52])]) [] =
      some ⟨0x00, 0x0304, 0x01F0, 0x2001, 0b000010, []⟩ := by decide

/-- V243. -/
theorem test_nsa :
    after (cpu 0xA5 0x2233 0x01F0 0x2000 0b000000 [(0x2000, [0x62])]) [] =
      some ⟨0x5A, 0x2233, 0x01F0, 0x2001, 0b000000, []⟩ := by decide

/-- V247. -/
theorem test_ldhx_low_bit7 :
    after (cpu 0x11 0x0000 0x01F0 0x2000 0b000000 [(0x2000, [0x45, 0x00, 0x80])]) [] =
      some ⟨0x11, 0x0080, 0x01F0, 0x2003, 0b000000, []⟩ := by decide

/-- V249. -/
theorem test_ldhx_page_end :
    after (cpu 0x11 0x0000 0x01F0 0x2000 0b000000 [(0x2000, [0x55, 0xFF]), (0x00FF, [0x12]), (0x0100, [0x34])]) [] =
      some ⟨0x11, 0x1234, 0x01F0, 0x2002, 0b000000, []⟩ := by decide

/-- V252. -/
theorem test_sthx_page_end :
    after (cpu 0x11 0x8001 0x01F0 0x2000 0b000000 [(0x2000, [0x35, 0xFF])]) [0x00FF, 0x0100] =
      some ⟨0x11, 0x8001, 0x01F0, 0x2002, 0b000100, [0x80, 0x01]⟩ := by decide

/-- V255. -/
theorem test_cphx_overflow :
    after (cpu 0x11 0x8000 0x01F0 0x2000 0b000000 [(0x2000, [0x65, 0x00, 0x01])]) [] =
      some ⟨0x11, 0x8000, 0x01F0, 0x2003, 0b100000, []⟩ := by decide

/-- V257. -/
theorem test_cphx_dir :
    after (cpu 0x11 0x4000 0x01F0 0x2000 0b000000 [(0x2000, [0x75, 0x60]), (0x0060, [0x40]), (0x0061, [0x00])]) [] =
      some ⟨0x11, 0x4000, 0x01F0, 0x2002, 0b000010, []⟩ := by decide

/-- V259. -/
theorem test_aix_negative :
    after (cpu 0x11 0x0100 0x01F0 0x2000 0b000000 [(0x2000, [0xAF, 0xFF])]) [] =
      some ⟨0x11, 0x00FF, 0x01F0, 0x2002, 0b000000, []⟩ := by decide

/-- V264. -/
theorem test_ais_wraps :
    after (cpu 0x11 0x2233 0x0010 0x2000 0b000000 [(0x2000, [0xA7, 0x80])]) [] =
      some ⟨0x11, 0x2233, 0xFF90, 0x2002, 0b000000, []⟩ := by decide

/-- V266. -/
theorem test_txs_wraps :
    after (cpu 0x11 0x0000 0x00FF 0x2000 0b000000 [(0x2000, [0x94])]) [] =
      some ⟨0x11, 0x0000, 0xFFFF, 0x2001, 0b000000, []⟩ := by decide

/-- V268. -/
theorem test_tsx_wraps :
    after (cpu 0x11 0x4502 0xFFFF 0x2000 0b000000 [(0x2000, [0x95])]) [] =
      some ⟨0x11, 0x0000, 0xFFFF, 0x2001, 0b000000, []⟩ := by decide

/-- V269. -/
theorem test_rsp :
    after (cpu 0x11 0x2233 0x01E1 0x2000 0b101101 [(0x2000, [0x9C])]) [] =
      some ⟨0x11, 0x2233, 0x00FF, 0x2001, 0b101101, []⟩ := by decide

/-- V270. -/
theorem test_tax :
    after (cpu 0x06 0x4502 0x01F0 0x2000 0b111111 [(0x2000, [0x97])]) [] =
      some ⟨0x06, 0x4506, 0x01F0, 0x2001, 0b111111, []⟩ := by decide

/-- V271. -/
theorem test_txa :
    after (cpu 0x06 0x4502 0x01F0 0x2000 0b000000 [(0x2000, [0x9F])]) [] =
      some ⟨0x02, 0x4502, 0x01F0, 0x2001, 0b000000, []⟩ := by decide

/-- V275. -/
theorem test_psha_wraps :
    after (cpu 0x77 0x2233 0x0000 0x2000 0b000000 [(0x2000, [0x87])]) [0x0000] =
      some ⟨0x77, 0x2233, 0xFFFF, 0x2001, 0b000000, [0x77]⟩ := by decide

/-- V273. -/
theorem test_pshx :
    after (cpu 0x11 0x1002 0x00FF 0x2000 0b000000 [(0x2000, [0x89])]) [0x00FF] =
      some ⟨0x11, 0x1002, 0x00FE, 0x2001, 0b000000, [0x02]⟩ := by decide

/-- V274. -/
theorem test_pshh :
    after (cpu 0x11 0x1002 0x00FF 0x2000 0b000000 [(0x2000, [0x8B])]) [0x00FF] =
      some ⟨0x11, 0x1002, 0x00FE, 0x2001, 0b000000, [0x10]⟩ := by decide

/-- V279. -/
theorem test_pula_wraps :
    after (cpu 0x00 0x2233 0xFFFF 0x2000 0b000000 [(0x2000, [0x86]), (0x0000, [0x5A])]) [] =
      some ⟨0x5A, 0x2233, 0x0000, 0x2001, 0b000000, []⟩ := by decide

/-- V277. -/
theorem test_pulx :
    after (cpu 0x11 0x1000 0x00FE 0x2000 0b000000 [(0x2000, [0x88]), (0x00FF, [0x02])]) [] =
      some ⟨0x11, 0x1002, 0x00FF, 0x2001, 0b000000, []⟩ := by decide

/-- V278. -/
theorem test_pulh :
    after (cpu 0x11 0x0002 0x00FE 0x2000 0b000000 [(0x2000, [0x8A]), (0x00FF, [0x10])]) [] =
      some ⟨0x11, 0x1002, 0x00FF, 0x2001, 0b000000, []⟩ := by decide

/-- V285. -/
theorem test_rts :
    after (cpu 0x11 0x2233 0x00EE 0x1000 0b000000 [(0x1000, [0x81]), (0x00EF, [0x20]), (0x00F0, [0x03])]) [] =
      some ⟨0x11, 0x2233, 0x00F0, 0x2003, 0b000000, []⟩ := by decide

/-- V287. -/
theorem test_tpa :
    after (cpu 0x00 0x2233 0x01F0 0x2000 0b001010 [(0x2000, [0x85])]) [] =
      some ⟨0x6A, 0x2233, 0x01F0, 0x2001, 0b001010, []⟩ := by decide

/-- V294. -/
theorem test_tap :
    after (cpu 0x91 0x2233 0x01F0 0x2000 0b000000 [(0x2000, [0x84])]) [] =
      some ⟨0x91, 0x2233, 0x01F0, 0x2001, 0b110001, []⟩ := by decide

/-- V295. -/
theorem test_clc :
    after (cpu 0x11 0x2233 0x01F0 0x2000 0b111111 [(0x2000, [0x98])]) [] =
      some ⟨0x11, 0x2233, 0x01F0, 0x2001, 0b111110, []⟩ := by decide

/-- V296. -/
theorem test_sec :
    after (cpu 0x11 0x2233 0x01F0 0x2000 0b000000 [(0x2000, [0x99])]) [] =
      some ⟨0x11, 0x2233, 0x01F0, 0x2001, 0b000001, []⟩ := by decide

/-- V297. -/
theorem test_cli :
    after (cpu 0x11 0x2233 0x01F0 0x2000 0b111111 [(0x2000, [0x9A])]) [] =
      some ⟨0x11, 0x2233, 0x01F0, 0x2001, 0b110111, []⟩ := by decide

/-- V298. -/
theorem test_sei :
    after (cpu 0x11 0x2233 0x01F0 0x2000 0b000000 [(0x2000, [0x9B])]) [] =
      some ⟨0x11, 0x2233, 0x01F0, 0x2001, 0b001000, []⟩ := by decide

/-- V299. -/
theorem test_nop :
    after (cpu 0x11 0x2233 0x01F0 0x2000 0b101010 [(0x2000, [0x9D])]) [] =
      some ⟨0x11, 0x2233, 0x01F0, 0x2001, 0b101010, []⟩ := by decide

/-- V302. -/
theorem test_swi_masked :
    after (cpu 0xAA 0x0055 0x01FF 0x80FE 0b001000 [(0x80FE, [0x83]), (0xFFFC, [0x12]), (0xFFFD, [0x34])]) [0x01FF, 0x01FE, 0x01FD, 0x01FC, 0x01FB] =
      some ⟨0xAA, 0x0055, 0x01FA, 0x1234, 0b001000, [0xFF, 0x80, 0x55, 0xAA, 0x68]⟩ := by decide

/-- V304. -/
theorem test_rti :
    after (cpu 0x00 0x0000 0x00F0 0x3000 0b111011 [(0x3000, [0x80]), (0x00F1, [0x04]), (0x00F2, [0xA4]), (0x00F3, [0x02]), (0x00F4, [0x20]), (0x00F5, [0x00])]) [] =
      some ⟨0xA4, 0x0002, 0x00F5, 0x2000, 0b000100, []⟩ := by decide

/-- V305. -/
theorem test_stop :
    after (cpu 0x11 0x2233 0x01F0 0x2000 0b111111 [(0x2000, [0x8E])]) [] =
      some ⟨0x11, 0x2233, 0x01F0, 0x2001, 0b110111, []⟩ := by decide

/-- V306. -/
theorem test_wait :
    after (cpu 0x11 0x2233 0x01F0 0x2000 0b001000 [(0x2000, [0x8F])]) [] =
      some ⟨0x11, 0x2233, 0x01F0, 0x2001, 0b000000, []⟩ := by decide

/-- V307. -/
theorem test_mov_dd :
    after (cpu 0x11 0x2233 0x01F0 0x2000 0b100011 [(0x2000, [0x4E, 0x40, 0x41]), (0x0040, [0x80]), (0x0041, [0x00])]) [0x0041] =
      some ⟨0x11, 0x2233, 0x01F0, 0x2003, 0b000101, [0x80]⟩ := by decide

/-- V308. -/
theorem test_mov_dixp_carries :
    after (cpu 0x11 0x01FF 0x01F0 0x2000 0b100100 [(0x2000, [0x5E, 0x40]), (0x0040, [0x00])]) [0x01FF] =
      some ⟨0x11, 0x0200, 0x01F0, 0x2002, 0b000010, [0x00]⟩ := by decide

/-- V310. -/
theorem test_mov_ixpd :
    after (cpu 0x11 0x01FF 0x01F0 0x2000 0b000000 [(0x2000, [0x7E, 0x50]), (0x01FF, [0x7F])]) [0x0050] =
      some ⟨0x11, 0x0200, 0x01F0, 0x2002, 0b000000, [0x7F]⟩ := by decide

/-- By hand, R164. -/
theorem test_comx : after (cpu 0 0x120F 0xF0 0x2000 0b100000 [(0x2000, [0x53])]) [] = some ⟨0, 0x12F0, 0xF0, 0x2001, 0b000101, []⟩ := by decide

/-- By hand, R168. -/
theorem test_lsrx : after (cpu 0 0x1203 0xF0 0x2000 0b000000 [(0x2000, [0x54])]) [] = some ⟨0, 0x1201, 0xF0, 0x2001, 0b100001, []⟩ := by decide

/-- By hand, R171. -/
theorem test_rorx : after (cpu 0 0x1202 0xF0 0x2000 0b000001 [(0x2000, [0x56])]) [] = some ⟨0, 0x1281, 0xF0, 0x2001, 0b100100, []⟩ := by decide

/-- By hand, R162. -/
theorem test_asrx : after (cpu 0 0x1282 0xF0 0x2000 0b000001 [(0x2000, [0x57])]) [] = some ⟨0, 0x12C1, 0xF0, 0x2001, 0b100100, []⟩ := by decide

/-- By hand, R170. -/
theorem test_rolx : after (cpu 0 0x1280 0xF0 0x2000 0b000001 [(0x2000, [0x59])]) [] = some ⟨0, 0x1201, 0xF0, 0x2001, 0b100001, []⟩ := by decide

/-- By hand, R172: H is not tested. -/
theorem test_tstx : after (cpu 0 0x8000 0xF0 0x2000 0b100101 [(0x2000, [0x5D])]) [] = some ⟨0, 0x8000, 0xF0, 0x2001, 0b000011, []⟩ := by decide

/-- By hand, R131 to R150 and R134, R135, R142, R145: taken ($2006) and not ($2002), flags V H I N Z C. -/
theorem test_conditional_branches :
    branchPc 0x22 0b111100 = some 0x2006 ∧ branchPc 0x22 0b000010 = some 0x2002 ∧
    branchPc 0x23 0b000001 = some 0x2006 ∧ branchPc 0x23 0b111100 = some 0x2002 ∧
    branchPc 0x24 0b111110 = some 0x2006 ∧ branchPc 0x24 0b000001 = some 0x2002 ∧
    branchPc 0x25 0b000001 = some 0x2006 ∧ branchPc 0x25 0b111110 = some 0x2002 ∧
    branchPc 0x26 0b111101 = some 0x2006 ∧ branchPc 0x26 0b000010 = some 0x2002 ∧
    branchPc 0x27 0b000010 = some 0x2006 ∧ branchPc 0x27 0b111101 = some 0x2002 ∧
    branchPc 0x28 0b101111 = some 0x2006 ∧ branchPc 0x28 0b010000 = some 0x2002 ∧
    branchPc 0x29 0b010000 = some 0x2006 ∧ branchPc 0x29 0b101111 = some 0x2002 ∧
    branchPc 0x2A 0b111011 = some 0x2006 ∧ branchPc 0x2A 0b000100 = some 0x2002 ∧
    branchPc 0x2B 0b000100 = some 0x2006 ∧ branchPc 0x2B 0b111011 = some 0x2002 := by decide

theorem test_conditional_branches_signed :
    branchPc 0x2C 0b110111 = some 0x2006 ∧ branchPc 0x2C 0b001000 = some 0x2002 ∧
    branchPc 0x2D 0b001000 = some 0x2006 ∧ branchPc 0x2D 0b110111 = some 0x2002 ∧
    branchPc 0x90 0b100100 = some 0x2006 ∧ branchPc 0x90 0b000100 = some 0x2002 ∧
    branchPc 0x91 0b100000 = some 0x2006 ∧ branchPc 0x91 0b100100 = some 0x2002 ∧
    branchPc 0x92 0b100100 = some 0x2006 ∧ branchPc 0x92 0b000010 = some 0x2002 ∧
    branchPc 0x93 0b000010 = some 0x2006 ∧ branchPc 0x93 0b100100 = some 0x2002 := by decide

/-- V219 and V222: A and H I N Z C after DAA; V is a free value. -/
theorem test_daa_table :
    (nextOf (exec .daa (cpu 0xC1 0 0xF0 0x2000 0b010000 []))).map
      (fun t => (t.a, t.ccr.h, t.ccr.n, t.ccr.z, t.ccr.c)) = some (0x27, true, false, false, true) ∧
    (nextOf (exec .daa (cpu 0x32 0 0xF0 0x2000 0b010001 []))).map
      (fun t => (t.a, t.ccr.h, t.ccr.n, t.ccr.z, t.ccr.c)) = some (0x98, true, true, false, true) := ⟨rfl, rfl⟩

/-- V240 and V241: C is set, X, PC, V, H, I and N are as the rule says, the rest is free. -/
theorem test_div_overflow_and_zero :
    (nextOf (exec .div (cpu 0x00 0x0101 0xF0 0x2000 0b100100 []))).map
      (fun t => (t.x, t.pc, t.ccr.v, t.ccr.n, t.ccr.c)) = some (0x01, 0x2001, true, true, true) ∧
    (nextOf (exec .div (cpu 0x14 0x0000 0xF0 0x2000 0b011000 []))).map
      (fun t => (t.x, t.pc, t.ccr.h, t.ccr.i, t.ccr.c)) = some (0x00, 0x2001, true, true, true) := ⟨rfl, rfl⟩

/-- V316 and V326. -/
theorem test_illegal_opcodes :
    faultOf (step (cpu 0x11 0 0xF0 0x2000 0 [(0x2000, [0x32])])) = some (.illegalOpcode 0x2000 [0x32]) ∧
    faultOf (step (cpu 0x11 0 0xF0 0x2000 0 [(0x2000, [0x9E, 0xEC, 0x01])])) =
      some (.illegalOpcode 0x2000 [0x9E, 0xEC]) := by decide

/-- STOP and WAIT change the run state (V305, V306). -/
theorem test_stop_wait_run_state :
    (nextOf (exec .stop (cpu 0 0 0xF0 0x2000 0b111111 []))).map (·.run) = some .stopped ∧
    (nextOf (exec .wait (cpu 0 0 0xF0 0x2000 0b001000 []))).map (·.run) = some .waiting := by decide

/-- `withFetchWord` places the instruction where the next step runs it. -/
theorem test_withFetchWord :
    (nextOf (step (State.reset.withFetchWord 16 0xA65A))).map (fun t => (t.a, t.pc)) = some (0x5A, 0x0002) ∧
    (nextOf (step (State.reset.withFetchWord 8 0x8F))).map (·.run) = some .waiting := by decide

/-! ### Hypotheses that can be met: states and operands for each obligation that has any -/

/-- An answer with a next state. -/
theorem answers {o : Out} (h : (nextOf o).isSome = true) : ∃ t, o = .next t := by
  cases o with
  | next t => exact ⟨t, rfl⟩
  | fault _ => cases h
  | refused _ => cases h

/-- A running machine with all of memory RAM and some bytes in it. -/
def plain : State :=
  cpu 0x12 0x3456 0x01F0 0x2000 0b101010 [(0x0010, [0x77]), (0x2000, [0xA6, 0x55]), (0xFFFC, [0x40, 0x00])]

/-- The same with other regions: ROM, a device and a hole. -/
def mapped : State :=
  { plain with cfg := { plain.cfg with memMap := [⟨0x8000, 0x100, .rom⟩, ⟨0x9000, 0x10, .device⟩, ⟨0xA000, 1, .unimplemented⟩] } }

theorem witness_DecodeEncodeRoundTrip :
    Instr.wellFormed (.clr (.sp1 0xFF)) = true ∧ Instr.wellFormed (.lda (.mem (.sp2 0xFFFF))) = true ∧
    Instr.wellFormed (.bhs 0x00) = true := by decide

theorem witness_EncodeDecodeRoundTrip :
    decode [0x9E, 0xDA, 0xFF, 0xFF, 0x00] = .ok (.ora (.mem (.sp2 0xFFFF))) := by decide

theorem witness_StepRunsDecoded :
    plain.run = .running ∧ plain.env.reset = false ∧ plain.env.cut = none ∧ plain.recognised = none ∧
    decode plain.fetchBytes = .ok (.lda (.imm 0x55)) := by decide

/-- A four-byte instruction whose words lie across the end of the address space. -/
def acrossTheEnd : State :=
  cpu 0 0 0x01F0 0xFFFE 0b001000 [(0xFFFE, [0x9E, 0xD6, 0x12, 0x34])]

theorem witness_StepRunsStoredWords :
    acrossTheEnd.run = .running ∧ acrossTheEnd.env.reset = false ∧ acrossTheEnd.env.cut = none ∧ acrossTheEnd.recognised = none ∧
    Instr.wellFormed (.lda (.mem (.sp2 0x1234))) = true ∧
    ∀ k, k < (encode (.lda (.mem (.sp2 0x1234)))).length →
      acrossTheEnd.memoryAt (acrossTheEnd.pc + BitVec.ofNat 16 k) ∧
      (encode (.lda (.mem (.sp2 0x1234))))[k]? = some (acrossTheEnd.peek (acrossTheEnd.pc + BitVec.ofNat 16 k)) := by
  refine ⟨rfl, rfl, rfl, by decide, rfl, fun k hk => ?_⟩
  have h : k = 0 ∨ k = 1 ∨ k = 2 ∨ k = 3 := by
    have : k < 4 := hk
    omega
  rcases h with rfl | rfl | rfl | rfl <;> exact ⟨.inl rfl, by decide⟩

/-- PC at the last byte of RAM before a device, or at the device, or at an unassigned encoding. -/
def badBytes (pc : Word) (action : IllegalAction) : State :=
  let s := cpu 0 0 0x01F0 pc 0 [(0x2000, [0x32]), (0x3000, [0x9E, 0xEC]), (0x4FFD, [0x9E, 0xD6, 0x12])]
  { s with cfg := { s.cfg with illegalAction := action, memMap := [⟨0x5000, 1, .device⟩] } }

theorem badBytes_run (pc : Word) (action : IllegalAction) :
    (badBytes pc action).run = .running ∧ (badBytes pc action).env.reset = false ∧
    (badBytes pc action).env.cut = none ∧ (badBytes pc action).recognised = none ∧ (badBytes pc action).cfg.illegalAction = action :=
  ⟨rfl, rfl, rfl, rfl, rfl⟩

theorem witness_StepWithoutInstruction (action : IllegalAction) :
    decode (badBytes 0x2000 action).fetchBytes = .error (.unassigned 0x32) ∧
    decode (badBytes 0x3000 action).fetchBytes = .error (.unassignedPage2 0xEC) ∧
    decode (badBytes 0x4FFD action).fetchBytes = .error .truncated ∧
    decode (badBytes 0x5000 action).fetchBytes = .error .truncated := by
  cases action <;> decide

theorem witness_StepKeepsInv :
    (plain.Inv ∧ ∃ t, step plain = .next t) ∧
    (State.reset.Inv ∧ ∃ t, step State.reset = .next t) := by
  exact ⟨⟨⟨by decide, trivial, trivial⟩, answers (by decide)⟩, ⟨rfl, trivial, trivial⟩, answers (by decide)⟩

/-- The states the invariant speaks about in the low-power states and after CLI and SEI. -/
def asleep (r : RunState) : State :=
  { plain with ccr := { plain.ccr with i := false }, run := r }

theorem witness_StepKeepsInv_run_states :
    (∀ r ∈ [RunState.waiting, .stopped, .recovering 0 false, .recovering 4095 true], ∃ t, step (asleep r) = .next t) ∧
    (asleep .waiting).Inv ∧ (asleep .stopped).Inv ∧ (asleep (.recovering 0 false)).Inv ∧
    (asleep (.recovering 4095 true)).Inv ∧ State.Inv { plain with mask := .justSet } ∧
    State.Inv { asleep .running with mask := .justCleared } := by
  refine ⟨fun r hr => ?_, ⟨by decide, ⟨rfl, rfl⟩, trivial⟩, ⟨by decide, ⟨rfl, rfl, rfl⟩, trivial⟩,
    ⟨by decide, ⟨rfl, rfl, rfl, by decide⟩, trivial⟩, ⟨by decide, ⟨rfl, rfl, rfl, by decide⟩, trivial⟩,
    ⟨by decide, trivial, rfl⟩, ⟨by decide, trivial, rfl⟩⟩
  simp only [List.mem_cons, List.not_mem_nil, or_false] at hr
  rcases hr with rfl | rfl | rfl | rfl <;> exact answers (by decide)

/-- In the plain machine every address is implemented, so every premise `present` holds in it. -/
theorem witness_EveryInstructionCompletes : plain.AllPresent :=
  fun _ => rfl

theorem witness_PlainMachineNeverStops :
    { plain.cfg with illegalAction := .reset, runEnd := [.steps 0, .steps 5] }.memMap = [] ∧
    { plain.cfg with illegalAction := .reset, runEnd := [.steps 0, .steps 5] }.illegalAction = .reset ∧
    EndCondition.steps 0 ∈ { plain.cfg with illegalAction := .reset, runEnd := [.steps 0, .steps 5] }.runEnd ∧
    EndCondition.steps 5 ∈ { plain.cfg with illegalAction := .reset, runEnd := [.steps 0, .steps 5] }.runEnd := by decide

/-- For MemoryFrame, RegisterFrame, FlagTable and HiddenStateFrame: an instruction that stores, and an address beside. -/
theorem witness_frames :
    (∃ t, exec (.sta (.dir 0x40)) plain = .next t) ∧ stores plain (.sta (.dir 0x40)) = [0x0040] ∧
    (0x0041 : Word) ∉ stores plain (.sta (.dir 0x40)) ∧ Reg.a ∉ regsWritten (.sta (.dir 0x40)) ∧
    Instr.sta (.dir 0x40) ∉ [Instr.stop, .wait, .swi] := ⟨answers (by decide), by decide, by decide, by decide, by decide⟩

/-- HiddenStateFrame: an instruction that touches no device, one that stores to one, and one that faults. -/
theorem witness_HiddenStateFrame :
    (∃ t, exec (.inc (.dir 0x40)) mapped = .next t) ∧
    (mapped.accesses (.inc (.dir 0x40))).all (fun acc => mapped.kind acc.addr != .device) = true ∧
    (∃ t, exec (.sta (.ext 0x900F)) mapped = .next t) ∧
    faultOf (exec (.sta (.ext 0xA000)) mapped) = some (.unimplementedWrite 0xA000) :=
  ⟨answers (by decide), by decide, answers (by decide), by decide⟩

theorem witness_AccessByClass :
    mapped.memoryAt 0x7FFF ∧ mapped.memoryAt 0x80FF ∧ mapped.kind 0x900F = .device ∧
    mapped.kind 0xA000 = .unimplemented ∧ mapped.kind 0xA001 = .ram ∧ mapped.kind 0x8000 = .rom :=
  ⟨.inl (by decide), .inr (by decide), by decide, by decide, by decide, by decide⟩

theorem witness_LoadAfterStore :
    plain.mem.wf = true ∧ plain.kind (plain.ea (.ix1 0xFF)) = .ram ∧ ∃ t, exec (.sta (.ix1 0xFF)) plain = .next t :=
  ⟨by decide, by decide, answers (by decide)⟩

/-- For BitModify, BitBranch, CbeqMeans, DbnzMeans, the RMW, load, store and move statements: implemented operands, at both
ends of the operands' ranges, also where other addresses are not implemented. -/
theorem witness_present :
    mapped.present (directAddr 0x00) = true ∧ mapped.present (directAddr 0xFF) = true ∧
    mapped.present (directAddr 0xFF + 1) = true ∧ mapped.present (mapped.ea .ix) = true ∧
    mapped.present (mapped.ea (.ix1 0xFF)) = true ∧ mapped.present (mapped.ea (.ix2 0xFFFF)) = true ∧
    mapped.present (mapped.ea (.sp1 0xFF)) = true ∧ mapped.present (mapped.ea (.sp2 0xFFFF)) = true ∧
    mapped.present (mapped.ea (.ext 0xFFFF)) = true ∧ mapped.present (wordOf mapped.h mapped.x) = true ∧
    mapped.present mapped.hx = true ∧ mapped.present (mapped.ea (.ext 0xA000)) = false := by decide

/-- For AddMeans, SubtractMeans, LogicMeans, LoadMeans, CphxMeans and LdhxMeans. -/
theorem witness_operandReady :
    mapped.operandReady (.imm 0xFF) = true ∧ mapped.operandReady (.mem (.ext 0x900F)) = true ∧
    mapped.operand16Ready (.imm 0xFFFF) = true ∧ mapped.operand16Ready (.dir 0xFF) = true := by decide

theorem witness_CompareThenBranch :
    (∃ t, exec (.cmp (.imm 0x80)) plain = .next t) ∧ ∃ t, exec (.cmp (.mem (.ix1 0xFF))) plain = .next t :=
  ⟨answers (by decide), answers (by decide)⟩

/-- For JumpsAndCalls and StackInstructions: a stack that wraps, at SP `$0000` and at SP `$FFFF`. -/
theorem witness_stack :
    (mapped.present 0x0000 = true ∧ mapped.present (0x0000 - 1) = true ∧ mapped.present (0x0000 + 1) = true ∧
      mapped.present (0x0000 + 2) = true) ∧
    mapped.present 0xFFFF = true ∧ mapped.present (0xFFFF - 1) = true ∧ mapped.present (0xFFFF + 1) = true ∧
      mapped.present (0xFFFF + 2) = true := by decide

theorem witness_CallThenReturn :
    plain.mem.wf = true ∧ plain.kind plain.sp = .ram ∧ plain.kind (plain.sp - 1) = .ram ∧
    (Ea.length (.ext 0x1234) = 3 ∧ ∃ t, exec (.jsr (.ext 0x1234)) plain = .next t) ∧
    ∃ t, exec (.bsr 0x80) plain = .next t :=
  ⟨by decide, by decide, by decide, ⟨rfl, answers (by decide)⟩, answers (by decide)⟩

/-- DIV on both sides of `H = X`, and with a zero divisor. -/
theorem witness_DivMeans :
    (∃ s : State, s.h = 0xFE ∧ s.h.toNat < s.x.toNat) ∧ (∃ s : State, s.h = 0xFF ∧ s.x.toNat ≤ s.h.toNat) ∧
    ∃ s : State, s.h = 0x00 ∧ s.x = 0x00 ∧ s.x.toNat ≤ s.h.toNat :=
  ⟨⟨cpu 0 0xFEFF 0 0 0 [], rfl, by decide⟩, ⟨cpu 0 0xFFFF 0 0 0 [], rfl, by decide⟩, cpu 0 0x0000 0 0 0 [], rfl, rfl, by decide⟩

/-- 99 + 99 with a carry by ADC, and 00 + 00 by ADD. -/
theorem witness_DaaAfterBcdAddition :
    ((cpu 0x99 0 0 0 0b000001 []).a = BitVec.ofNat 8 (16 * 9 + 9) ∧
      (∃ t, exec (.adc (.imm (BitVec.ofNat 8 (16 * 9 + 9)))) (cpu 0x99 0 0 0 0b000001 []) = .next t) ∧
      true = (cpu 0x99 0 0 0 0b000001 []).ccr.c) ∧
    (cpu 0x00 0 0 0 0b000001 []).a = BitVec.ofNat 8 (16 * 0 + 0) ∧
      ∃ t, exec (.add (.imm (BitVec.ofNat 8 (16 * 0 + 0)))) (cpu 0x00 0 0 0 0b000001 []) = .next t :=
  ⟨⟨rfl, answers (by decide), rfl⟩, rfl, answers (by decide)⟩

/-- The nine rows of DaaOutsideTable, in their order, each at a border. -/
theorem witness_DaaOutsideTable_rows :
    (∃ s : State, s.ccr.c = false ∧ s.a.toNat / 16 ≤ 9 ∧ s.ccr.h = false ∧ s.a.toNat % 16 ≤ 9) ∧
    (∃ s : State, s.ccr.c = false ∧ s.a.toNat / 16 ≤ 8 ∧ s.ccr.h = false ∧ 10 ≤ s.a.toNat % 16) ∧
    (∃ s : State, s.ccr.c = false ∧ s.a.toNat / 16 ≤ 9 ∧ s.ccr.h = true ∧ s.a.toNat % 16 ≤ 3) ∧
    (∃ s : State, s.ccr.c = false ∧ 10 ≤ s.a.toNat / 16 ∧ s.ccr.h = false ∧ s.a.toNat % 16 ≤ 9) ∧
    (∃ s : State, s.ccr.c = false ∧ 9 ≤ s.a.toNat / 16 ∧ s.ccr.h = false ∧ 10 ≤ s.a.toNat % 16) ∧
    (∃ s : State, s.ccr.c = false ∧ 10 ≤ s.a.toNat / 16 ∧ s.ccr.h = true ∧ s.a.toNat % 16 ≤ 3) ∧
    (∃ s : State, s.ccr.c = true ∧ s.a.toNat / 16 ≤ 2 ∧ s.ccr.h = false ∧ s.a.toNat % 16 ≤ 9) ∧
    (∃ s : State, s.ccr.c = true ∧ s.a.toNat / 16 ≤ 2 ∧ s.ccr.h = false ∧ 10 ≤ s.a.toNat % 16) ∧
    (∃ s : State, s.ccr.c = true ∧ s.a.toNat / 16 ≤ 3 ∧ s.ccr.h = true ∧ s.a.toNat % 16 ≤ 3) :=
  ⟨⟨cpu 0x99 0 0 0 0b000000 [], by decide⟩,
    ⟨cpu 0x8A 0 0 0 0b000000 [], by decide⟩,
    ⟨cpu 0x93 0 0 0 0b010000 [], by decide⟩,
    ⟨cpu 0xA9 0 0 0 0b000000 [], by decide⟩,
    ⟨cpu 0x9A 0 0 0 0b000000 [], by decide⟩,
    ⟨cpu 0xA3 0 0 0 0b010000 [], by decide⟩,
    ⟨cpu 0x29 0 0 0 0b000001 [], by decide⟩,
    ⟨cpu 0x2A 0 0 0 0b000001 [], by decide⟩,
    ⟨cpu 0x33 0 0 0 0b010001 [], by decide⟩⟩

/-- The four borders of the DAA table. -/
theorem witness_DaaOutsideTable :
    ((cpu 0x04 0 0 0 0b010000 []).ccr.c = false ∧ (cpu 0x04 0 0 0 0b010000 []).ccr.h = true ∧ 4 ≤ (0x04 : Byte).toNat % 16) ∧
    ((cpu 0x30 0 0 0 0b000001 []).ccr.c = true ∧ (cpu 0x30 0 0 0 0b000001 []).ccr.h = false ∧ 3 ≤ (0x30 : Byte).toNat / 16) ∧
    ((cpu 0x40 0 0 0 0b010001 []).ccr.c = true ∧ (cpu 0x40 0 0 0 0b010001 []).ccr.h = true ∧ 4 ≤ (0x40 : Byte).toNat / 16) ∧
    ((cpu 0x04 0 0 0 0b010001 []).ccr.c = true ∧ (cpu 0x04 0 0 0 0b010001 []).ccr.h = true ∧
      4 ≤ (0x04 : Byte).toNat % 16) := by decide

theorem witness_NsaMeans : ∃ t u : State, exec .nsa plain = .next t ∧ exec .nsa t = .next u :=
  ⟨_, _, rfl, rfl⟩

theorem witness_FlagTransfers : ∃ t u : State, exec .tpa plain = .next t ∧ exec .tap t = .next u :=
  ⟨_, _, rfl, rfl⟩

/-- For SwiEntry, SwiThenRti and RtiRestores: a stack that wraps below `$0000`. -/
def lowStack : State :=
  { plain with sp := 0x0002 }

theorem witness_SwiEntry :
    (∀ k, k < 5 → lowStack.present (lowStack.sp - BitVec.ofNat 16 k) = true) ∧
    lowStack.present 0xFFFC = true ∧ lowStack.present 0xFFFD = true :=
  ⟨fun _ _ => rfl, rfl, rfl⟩

/-- Also for the second part of SwiEntry. -/
theorem witness_SwiThenRti :
    lowStack.mem.wf = true ∧ (∀ k, k < 5 → lowStack.kind (lowStack.sp - BitVec.ofNat 16 k) = .ram) ∧
    ∃ t, exec .swi lowStack = .next t :=
  ⟨by decide, fun _ _ => rfl, answers (by decide)⟩

theorem witness_RtiRestores :
    ∀ k, 1 ≤ k → k ≤ 5 → lowStack.memoryAt (lowStack.sp + BitVec.ofNat 16 k) :=
  fun _ _ _ => .inl rfl

/-- A machine in which the /IRQ pin and an on-chip source ask for an interrupt, I at 0. -/
def asking (r : RunState) : State :=
  let s := asleep r
  { s with
    irqEnable := true
    env := { reset := false, irqPin := false, requests := [1], choice := false, cut := none }
    cfg := { s.cfg with sources := [⟨1, 0xFFF0, 1⟩] } }

theorem witness_InterruptEntry :
    (asking .running).run = .running ∧ (asking .running).env.reset = false ∧ (asking .running).env.cut = none ∧
    (asking .running).recognised = some (irqSource (asking .running).cfg) ∧ (asking .running).mem.wf = true ∧
    (∀ k, k < 5 → (asking .running).kind ((asking .running).sp - BitVec.ofNat 16 k) = .ram) ∧
    (asking .running).memoryAt (irqSource (asking .running).cfg).vector ∧
    (asking .running).memoryAt ((irqSource (asking .running).cfg).vector + 1) :=
  ⟨rfl, rfl, rfl, by decide, by decide, fun _ _ => rfl, .inl rfl, .inl rfl⟩

theorem witness_InterruptEntry_accesses : ∃ t, mapped.takeException 0x2000 0xFFF0 = .next t :=
  answers (by decide)

/-- The same machine with a reset that strikes inside what begins at this boundary. -/
def cutAfter (n : Nat) (s : State) : State :=
  { s with env := { s.env with cut := some n } }

/-- Each premise of Masking, with requests pending and with none. -/
theorem witness_Masking :
    (plain.mask = .none ∧ plain.ccr.i = true) ∧ ((asking .running).mask = .none ∧ (asking .running).ccr.i = false) ∧
    (∃ s : State, s.mask = .justSet ∧ s.ccr.i = true ∧ s.env.choice = false ∧ s.pendingSources ≠ []) ∧
    (∃ s : State, s.mask = .justSet ∧ s.env.choice = true ∧ s.pendingSources ≠ []) ∧
    (∃ s : State, s.mask = .justCleared ∧ s.ccr.i = false ∧ s.env.choice = false ∧ s.pendingSources ≠ []) ∧
    (∃ s : State, s.mask = .justCleared ∧ s.ccr.i = false ∧ s.env.choice = true ∧ s.pendingSources ≠ []) ∧
    plain.pendingSources = [] := by
  refine ⟨⟨rfl, rfl⟩, ⟨rfl, rfl⟩,
    ⟨{ asking .running with mask := .justSet, ccr := plain.ccr }, rfl, rfl, rfl, by decide⟩,
    ⟨{ asking .running with mask := .justSet, env := { (asking .running).env with choice := true } }, rfl, rfl, by decide⟩,
    ⟨{ asking .running with mask := .justCleared }, rfl, rfl, rfl, by decide⟩,
    ⟨{ asking .running with mask := .justCleared, env := { (asking .running).env with choice := true } },
      rfl, rfl, rfl, by decide⟩, by decide⟩

theorem witness_Priority :
    bestSource (asking .running).pendingSources = some (irqSource (asking .running).cfg) ∧
    (asking .running).pendingSources = [irqSource (asking .running).cfg, ⟨1, 0xFFF0, 1⟩] := by decide

theorem witness_WaitingState :
    ((asleep .waiting).run = .waiting ∧ (asleep .waiting).env.reset = false ∧ (asleep .waiting).pendingSources = []) ∧
    (asking .waiting).run = .waiting ∧ (asking .waiting).env.reset = false ∧
    (asking .waiting).env.cut = none ∧ (cutAfter 3 (asking .waiting)).env.cut = some 3 ∧
    bestSource (cutAfter 3 (asking .waiting)).pendingSources = some (irqSource (asking .waiting).cfg) ∧
    bestSource (asking .waiting).pendingSources = some (irqSource (asking .waiting).cfg) := by decide

theorem witness_StopRecovery :
    (∃ s : State, s.run = .stopped ∧ s.future = [] ∧ s.env.reset = false ∧ s.env.irqPin = true) ∧
    (∃ s : State, s.run = .stopped ∧ s.future = [] ∧ s.env.reset = false ∧ s.env.irqPin = false ∧ s.env.cut = none) ∧
    (∃ s : State, s.run = .stopped ∧ s.future = [] ∧ s.env.reset = false ∧ s.env.irqPin = false ∧ s.env.cut = some 0) ∧
    ∃ s : State, s.run = .stopped ∧ s.future = [] ∧ s.env.reset = true :=
  ⟨⟨asleep .stopped, rfl, rfl, rfl, rfl⟩, ⟨asking .stopped, rfl, rfl, rfl, rfl, rfl⟩,
    ⟨cutAfter 0 (asking .stopped), rfl, rfl, rfl, rfl, rfl⟩,
    { asleep .stopped with env := { Inputs.quiet with reset := true } }, rfl, rfl, rfl⟩

theorem witness_ResetSequence :
    ∃ s : State, (s.run = .running ∨ s.run = .waiting) ∧ s.env.reset = true ∧ s.memoryAt s.cfg.resetVector ∧
      s.memoryAt (s.cfg.resetVector + 1) :=
  ⟨{ asleep .waiting with env := { Inputs.quiet with reset := true } }, .inr rfl, rfl, .inl rfl, .inl rfl⟩

/-- The second part of ResetSequence: a reset inside an entry, inside an instruction, and at bytes that spell none. -/
theorem witness_ResetSequence_cut :
    ((cutAfter 7 (asking .running)).run = .running ∧ (cutAfter 7 (asking .running)).env.reset = false ∧
      (cutAfter 7 (asking .running)).recognised = some (irqSource (asking .running).cfg)) ∧
    ((cutAfter 0 plain).run = .running ∧ (cutAfter 0 plain).env.reset = false ∧ (cutAfter 0 plain).recognised = none ∧
      decode (cutAfter 0 plain).fetchBytes = .ok (.lda (.imm 0x55))) ∧
    (cutAfter 1 (badBytes 0x2000 .fault)).recognised = none ∧
    decode (cutAfter 1 (badBytes 0x2000 .fault)).fetchBytes = .error (.unassigned 0x32) := by decide

/-- By hand, R290: a reset after one of the two writes of STHX $40 leaves H stored and X not; a reset inside an entry leaves the
pushes made by then. -/
theorem test_reset_inside_an_instruction :
    (nextOf (step (cutAfter 1 (cpu 0 0x4502 0xF0 0x2000 0 [(0x2000, [0x35, 0x40]), (0xFFFE, [0x80, 0x05])])))).map
      (fun t => (t.peek 0x40, t.peek 0x41, t.pc, t.sp)) = some (0x45, 0x00, 0x8005, 0x00FF) ∧
    (nextOf (step (cutAfter 2 (asking .running)))).map (fun t => (t.peek 0x01F0, t.peek 0x01EF, t.peek 0x01EE)) =
      some (0x00, 0x20, 0x00) := ⟨rfl, rfl⟩

/-- The ends of a run (R4, D31): `BRA *`, an address, the stopped state with no wake-up, a budget of steps. -/
theorem test_run_end :
    (cpu 0 0 0xF0 0x2000 0 [(0x2000, [0x20, 0xFE])]).endsBy 0 .selfBranch = true ∧ plain.endsBy 0 .selfBranch = false ∧
    plain.endsBy 0 (.atPc 0x2000) = true ∧ plain.endsBy 0 (.atPc 0x2001) = false ∧
    (asleep .stopped).endsBy 0 .neverWakes = true ∧ (asking .stopped).endsBy 0 .neverWakes = false ∧
    plain.endsBy 4 (.steps 5) = false ∧ plain.endsBy 5 (.steps 5) = true := by decide

/-- A run of one instruction, LDA #$55, up to the address after it. -/
theorem test_runToEnd :
    ((State.runToEnd { plain with cfg := { plain.cfg with runEnd := [.atPc 0x2002] } } 0 3).bind nextOf).map
      (fun t => (t.pc, t.a)) = some (0x2002, 0x55) := rfl

/-- The interrupt entry by numbers (R272: the /IRQ pin has the better rank here): frame, I and the vector. -/
theorem test_interrupt_entry :
    (nextOf (step (asking .running))).map (fun t => (t.sp, t.pc, t.ccr.i, t.run, t.peek 0x01F0, t.peek 0x01EF)) =
      some (0x01EB, 0x0000, true, .running, 0x00, 0x20) := by decide

/-- RESET: PC from the reset vector, SP, H and I from the parameter (R37, R291). -/
theorem test_reset :
    (nextOf (step { cpu 0x12 0x3456 0x01F0 0x2000 0 [(0xFFFE, [0x80, 0x05])] with
      env := { Inputs.quiet with reset := true } })).map (fun t => (t.sp, t.h, t.ccr.i, t.pc)) =
      some (0x00FF, 0x00, true, 0x8005) := rfl

end Sys2Proof.Tests
end

section
/-! SUPPORT. The arithmetic of the machine, which counts on integers, against the sums, differences and signed ranges the
statements name (00_scope.md R13 to R15; D11, log 20; D24, log 26). -/

namespace Sys2Proof.Machine

/-- A carry or a borrow, widened to a byte, is its number. -/
theorem toNat_carry (b : Bool) : ((BitVec.ofBool b).zeroExtend 8).toNat = b.toNat := by
  cases b <;> rfl

theorem add8_r (a m : Byte) (cin : Bool) : (add8 a m cin).r = a + m + (BitVec.ofBool cin).zeroExtend 8 := by
  apply BitVec.eq_of_toNat_eq
  simp only [add8, BitVec.toNat_ofNat, BitVec.toNat_add, toNat_carry]
  omega

theorem sub8_r (a m : Byte) (bin : Bool) : (sub8 a m bin).r = a - m - (BitVec.ofBool bin).zeroExtend 8 := by
  have hbin := Bool.toNat_le bin
  apply BitVec.eq_of_toNat_eq
  simp only [sub8, BitVec.toNat_ofInt, BitVec.toNat_sub, toNat_carry]
  omega

/-- The sign of a byte as a bound on its number, for `omega`. -/
theorem byte_msb (a : Byte) : a.msb = decide (128 ≤ a.toNat) := BitVec.msb_eq_decide a

/-- An addition leaves the signed range exactly when operands of one sign give a result of the other. -/
theorem add8_v (a m : Byte) (cin : Bool) : (add8 a m cin).v = outOfByte (a.toInt + m.toInt + cin.toNat) := by
  have hcin := Bool.toNat_le cin
  rw [Bool.eq_iff_iff]
  simp only [add8, outOfByte, byte_msb, BitVec.toNat_ofNat, BitVec.toInt_eq_toNat_cond, Bool.and_eq_true, beq_iff_eq, bne_iff_ne,
    decide_eq_decide, decide_eq_true_eq, ne_eq]
  omega

/-- A subtraction leaves the signed range exactly when the operands differ in sign and the result has not the sign of the first. -/
theorem sub8_v (a m : Byte) (bin : Bool) : (sub8 a m bin).v = outOfByte (a.toInt - m.toInt - bin.toNat) := by
  have hbin := Bool.toNat_le bin
  rw [Bool.eq_iff_iff]
  simp only [sub8, outOfByte, byte_msb, BitVec.toNat_ofInt, BitVec.toInt_eq_toNat_cond, Bool.and_eq_true, bne_iff_ne,
    decide_eq_decide, decide_eq_true_eq, ne_eq]
  omega

/-- The flags of an addition (R13). -/
theorem ofAdd_add8 (f : Flags) (a m : Byte) (cin : Bool) : f.ofAdd (add8 a m cin) = sumFlags a m cin f := by
  have hn : (add8 a m cin).n = (add8 a m cin).r.msb := rfl
  have hz : (add8 a m cin).z = ((add8 a m cin).r == 0) := rfl
  have hh : (add8 a m cin).h = decide (16 ≤ a.toNat % 16 + m.toNat % 16 + cin.toNat) := rfl
  have hc : (add8 a m cin).c = decide (256 ≤ a.toNat + m.toNat + cin.toNat) := rfl
  simp only [Flags.ofAdd, sumFlags, hn, hz, hh, hc, add8_v, add8_r]

/-- The flags of a subtraction (R14). -/
theorem ofByte_sub8 (f : Flags) (a m : Byte) (bin : Bool) : f.ofByte (sub8 a m bin) = differenceFlags a m bin f := by
  have hn : (sub8 a m bin).n = (sub8 a m bin).r.msb := rfl
  have hz : (sub8 a m bin).z = ((sub8 a m bin).r == 0) := rfl
  have hc : (sub8 a m bin).c = decide (a.toNat < m.toNat + bin.toNat) := by
    simp only [sub8, decide_eq_decide]; omega
  simp only [Flags.ofByte, differenceFlags, hn, hz, hc, sub8_v, sub8_r]

/-- The flags of a 16-bit comparison (R15). -/
theorem ofWord_sub16 (f : Flags) (a m : Word) : f.ofWord (sub16 a m) = compareFlags a m f := by
  have hr : BitVec.ofInt 16 (a.toNat - m.toNat : Int) = a - m := by
    apply BitVec.eq_of_toNat_eq
    simp only [BitVec.toNat_ofInt, BitVec.toNat_sub]
    omega
  have hv : (a.msb != m.msb && (a - m).msb != a.msb) =
      decide (a.toInt - m.toInt < -32768 ∨ 32767 < a.toInt - m.toInt) := by
    have h : (a.msb != m.msb && (a - m).msb != a.msb) = a.ssubOverflow m := by
      rw [BitVec.ssubOverflow_eq]
      cases a.msb <;> cases m.msb <;> simp
    rw [h, BitVec.ssubOverflow, Bool.eq_iff_iff]
    simp only [Bool.or_eq_true, decide_eq_true_eq]
    omega
  have hz : (a - m == 0) = (a == m) := by
    rw [Bool.eq_iff_iff, beq_iff_eq, beq_iff_eq]; exact sub_eq_zero
  have hc : decide ((a.toNat - m.toNat : Int) < 0) = decide (a.toNat < m.toNat) := by
    rw [decide_eq_decide]; omega
  simp only [Flags.ofWord, compareFlags, sub16, hr, hv, hz, hc]

end Sys2Proof.Machine
end

section
/-! SUPPORT. The forms of the register/memory instructions (45_register_memory.md R230) and of CPHX (R181), and what an instruction
that reads one operand and writes registers and flags only means. -/

namespace Sys2Proof.Machine

/-- The column and the row of the opcode map lie in different nibbles, so their sum is the opcode with both (R82). -/
theorem column_add_row {col row : Byte} (hcol : col &&& 0xF0 = col) (hrow : 0xF0 &&& row = 0) : col + row = col ||| row := by
  apply BitVec.add_eq_or_of_and_eq_zero
  rw [← hcol, BitVec.and_assoc, hrow]; exact BitVec.and_zero

@[simp] theorem hiByte_append (hi lo : Byte) : hiByte (hi ++ lo) = hi := hiByte_wordOf hi lo

@[simp] theorem loByte_append (hi lo : Byte) : loByte (hi ++ lo) = lo := loByte_wordOf hi lo

/-- An instruction whose words, length and cycles are those of its operand in row `row` has the eight forms of R230. -/
theorem srcForms_of_srcWords {i : Src → Instr} {row : Byte} (hrow : 0xF0 &&& row = 0)
    (h : ∀ src, encode (i src) = srcWords row src ∧ (i src).length = src.length ∧ (i src).cycles = src.cycles) :
    SrcForms i row := by
  have hcol : ∀ col : Byte, col &&& 0xF0 = col → col + row = col ||| row := fun _ h => column_add_row h hrow
  intro ii dd ff hh ll ee
  simp [HasForm, h, srcWords, memWords, prebyte, Src.length, Ea.length, Src.cycles, Ea.cycles, hcol]

/-- What an instruction of the shape `withSrc` means: the effect on the state after the operand was read, and the next PC. -/
theorem srcMeans_of_withSrc {i : Src → Instr} {f : State → Byte → State}
    (hexec : ∀ src s, exec (i src) s = withSrc src s fun m u => f u m) (hpc : ∀ u m, (f u m).pc = u.pc) :
    SrcMeans i f := by
  intro src s hready
  rw [hexec]
  cases src with
  | imm ii => simp [withSrc_imm, State.advance, State.setPc, State.nextPc, State.afterOperand, State.operand, Src.length, hpc]
  | mem ea =>
    simp [withSrc_mem (show s.present (s.ea ea) = true from hready), State.advance, State.setPc, State.nextPc,
      State.afterOperand, State.operand, Src.length, hpc]

theorem readWord_of_present {s : State} {a : Word} (hhi : s.present a = true) (hlo : s.present (a + 1) = true)
    (k : Word → State → Out) :
    s.readWord a k = k (wordOf (s.byteAt a) ((s.afterRead a).byteAt (a + 1))) ((s.afterRead a).afterRead (a + 1)) := by
  rw [State.readWord, readByte_of_present hhi, readByte_of_present (by rwa [State.afterRead_present])]

/-- The 16-bit operand of an instruction, where it can be read. -/
theorem readSrc16_of_ready {src : Src16} {s : State} (h : s.operand16Ready src = true) (k : Word → State → Out) :
    s.readSrc16 src k = k (s.operand16 src) (s.afterOperand16 src) := by
  cases src with
  | imm v => rfl
  | dir dd =>
    obtain ⟨hhi, hlo⟩ := Bool.and_eq_true_iff.mp h
    exact readWord_of_present hhi hlo k

@[simp] theorem State.afterOperand16_ccr (s : State) (src : Src16) : (s.afterOperand16 src).ccr = s.ccr := by
  cases src <;> simp [State.afterOperand16]

@[simp] theorem State.afterOperand16_pc (s : State) (src : Src16) : (s.afterOperand16 src).pc = s.pc := by
  cases src <;> simp [State.afterOperand16]

/-- What a comparison of H:X with the operand does, where the operand can be read. -/
theorem execCphx_of_ready {src : Src16} {s : State} (h : s.operand16Ready src = true) :
    execCphx src s = .next { s.afterOperand16 src with
      ccr := compareFlags (wordOf s.h s.x) (s.operand16 src) s.ccr, pc := s.pc + BitVec.ofNat 16 src.length } := by
  simp [execCphx, readSrc16_of_ready h, ofWord_sub16, State.advance, State.setCcr, State.setPc, State.nextPc, State.hx, wordOf]

end Sys2Proof.Machine
end

section
/-! CERTIFICATES. Additions, subtractions and comparisons. -/

namespace Sys2Proof.Machine

/-- Settles O32: the operand is read where it is ready, and the flags are those of the 16-bit comparison. -/
theorem cphxMeans : Obligations.CphxMeans := by
  unfold Obligations.CphxMeans
  refine ⟨fun hi lo dd => ⟨?_, rfl, rfl, rfl⟩, fun src s h => execCphx_of_ready h⟩
  exact ⟨by simp [encode, word16Words], rfl, rfl⟩

theorem execAdd_eq_withSrc (src : Src) (s : State) :
    execAdd src s = withSrc src s fun m u => { u with a := u.a + m, ccr := sumFlags u.a m false u.ccr } := by
  simp [execAdd, add8_r, ofAdd_add8, State.setA, State.setCcr]

theorem execAdc_eq_withSrc (src : Src) (s : State) :
    execAdc src s = withSrc src s fun m u =>
      { u with a := u.a + m + (BitVec.ofBool u.ccr.c).zeroExtend 8, ccr := sumFlags u.a m u.ccr.c u.ccr } := by
  simp only [execAdc, add8_r, ofAdd_add8, State.setA, State.setCcr]

theorem execSub_eq_withSrc (src : Src) (s : State) :
    execSub src s = withSrc src s fun m u => { u with a := u.a - m, ccr := differenceFlags u.a m false u.ccr } := by
  simp [execSub, sub8_r, ofByte_sub8, State.setA, State.setCcr]

theorem execSbc_eq_withSrc (src : Src) (s : State) :
    execSbc src s = withSrc src s fun m u =>
      { u with a := u.a - m - (BitVec.ofBool u.ccr.c).zeroExtend 8, ccr := differenceFlags u.a m u.ccr.c u.ccr } := by
  simp only [execSbc, sub8_r, ofByte_sub8, State.setA, State.setCcr]

theorem execCmp_eq_withSrc (src : Src) (s : State) :
    execCmp src s = withSrc src s fun m u => { u with ccr := differenceFlags u.a m false u.ccr } := by
  simp only [execCmp, ofByte_sub8, State.setCcr]

theorem execCpx_eq_withSrc (src : Src) (s : State) :
    execCpx src s = withSrc src s fun m u => { u with ccr := differenceFlags u.x m false u.ccr } := by
  simp only [execCpx, ofByte_sub8, State.setCcr]

/-- Settles O46, from the forms of row B and row 9 and the sum `add8` computes. -/
theorem addMeans : Obligations.AddMeans := by
  unfold Obligations.AddMeans
  exact ⟨⟨srcForms_of_srcWords rfl fun _ => ⟨rfl, rfl, rfl⟩, srcForms_of_srcWords rfl fun _ => ⟨rfl, rfl, rfl⟩⟩,
    srcMeans_of_withSrc execAdd_eq_withSrc fun _ _ => rfl,
    srcMeans_of_withSrc execAdc_eq_withSrc fun _ _ => rfl⟩

/-- Settles O47, from the forms of rows 0 to 3 and the difference `sub8` computes. -/
theorem subtractMeans : Obligations.SubtractMeans := by
  unfold Obligations.SubtractMeans
  exact ⟨⟨srcForms_of_srcWords rfl fun _ => ⟨rfl, rfl, rfl⟩, srcForms_of_srcWords rfl fun _ => ⟨rfl, rfl, rfl⟩,
      srcForms_of_srcWords rfl fun _ => ⟨rfl, rfl, rfl⟩, srcForms_of_srcWords rfl fun _ => ⟨rfl, rfl, rfl⟩⟩,
    srcMeans_of_withSrc execSub_eq_withSrc fun _ _ => rfl,
    srcMeans_of_withSrc execSbc_eq_withSrc fun _ _ => rfl,
    srcMeans_of_withSrc execCmp_eq_withSrc fun _ _ => rfl,
    srcMeans_of_withSrc execCpx_eq_withSrc fun _ _ => rfl⟩

end Sys2Proof.Machine
end

section
/-! SUPPORT. Completion: where every address is implemented, an operation answers a next state, and no operation changes the
parameters (R60, R261; log 1). One rule per operation, in the order of the operations. -/

namespace Sys2Proof.Machine

/-- An answer with a next state that has the parameters `cfg`. -/
def CompletesIn (cfg : Platform) (o : Out) : Prop :=
  ∃ t, o = .next t ∧ t.cfg = cfg

/-- A map under which every address answers a data access (R60). -/
def HoleFree (cfg : Platform) : Prop :=
  ∀ addr, kindIn cfg.memMap addr ≠ .unimplemented

theorem holeFree_cfg_iff {s : State} : HoleFree s.cfg ↔ s.AllPresent := by
  simp [HoleFree, State.AllPresent, State.present, State.kind]

section
variable {cfg : Platform} {s : State}

theorem present_of_holeFree (hfree : HoleFree cfg) (hs : s.cfg = cfg) (addr : Word) : s.present addr = true :=
  holeFree_cfg_iff.mp (hs ▸ hfree) addr

theorem completesIn_next (hs : s.cfg = cfg) : CompletesIn cfg (.next s) :=
  ⟨s, rfl, hs⟩

theorem completesIn_readByte {addr : Word} {k : Byte → State → Out} (hfree : HoleFree cfg) (hs : s.cfg = cfg)
    (hk : ∀ v u, u.cfg = cfg → CompletesIn cfg (k v u)) : CompletesIn cfg (s.readByte addr k) := by
  rw [readByte_of_present (present_of_holeFree hfree hs addr)]
  exact hk _ _ (by rwa [State.afterRead_cfg])

theorem completesIn_writeByte {addr : Word} {v : Byte} {k : State → Out} (hfree : HoleFree cfg) (hs : s.cfg = cfg)
    (hk : ∀ u, u.cfg = cfg → CompletesIn cfg (k u)) : CompletesIn cfg (s.writeByte addr v k) := by
  rw [writeByte_of_present (present_of_holeFree hfree hs addr)]
  exact hk _ (by rwa [State.afterWrite_cfg])

theorem completesIn_readWord {addr : Word} {k : Word → State → Out} (hfree : HoleFree cfg) (hs : s.cfg = cfg)
    (hk : ∀ v u, u.cfg = cfg → CompletesIn cfg (k v u)) : CompletesIn cfg (s.readWord addr k) :=
  completesIn_readByte hfree hs fun _ _ hu => completesIn_readByte hfree hu fun _ _ hv => hk _ _ hv

theorem completesIn_writeWord {addr v : Word} {k : State → Out} (hfree : HoleFree cfg) (hs : s.cfg = cfg)
    (hk : ∀ u, u.cfg = cfg → CompletesIn cfg (k u)) : CompletesIn cfg (s.writeWord addr v k) :=
  completesIn_writeByte hfree hs fun _ hu => completesIn_writeByte hfree hu hk

theorem completesIn_push {v : Byte} {k : State → Out} (hfree : HoleFree cfg) (hs : s.cfg = cfg)
    (hk : ∀ u, u.cfg = cfg → CompletesIn cfg (k u)) : CompletesIn cfg (s.push v k) :=
  completesIn_writeByte hfree hs fun u hu => hk (u.setSp (u.sp - 1)) hu

theorem completesIn_pull {k : Byte → State → Out} (hfree : HoleFree cfg) (hs : s.cfg = cfg)
    (hk : ∀ v u, u.cfg = cfg → CompletesIn cfg (k v u)) : CompletesIn cfg (s.pull k) :=
  completesIn_readByte (s := s.setSp (s.sp + 1)) hfree hs hk

theorem completesIn_pushWord {v : Word} {k : State → Out} (hfree : HoleFree cfg) (hs : s.cfg = cfg)
    (hk : ∀ u, u.cfg = cfg → CompletesIn cfg (k u)) : CompletesIn cfg (s.pushWord v k) :=
  completesIn_push hfree hs fun _ hu => completesIn_push hfree hu hk

theorem completesIn_pullWord {k : Word → State → Out} (hfree : HoleFree cfg) (hs : s.cfg = cfg)
    (hk : ∀ v u, u.cfg = cfg → CompletesIn cfg (k v u)) : CompletesIn cfg (s.pullWord k) :=
  completesIn_pull hfree hs fun _ _ hu => completesIn_pull hfree hu fun _ _ hv => hk _ _ hv

theorem completesIn_takeException {ret vector : Word} (hfree : HoleFree cfg) (hs : s.cfg = cfg) :
    CompletesIn cfg (s.takeException ret vector) :=
  completesIn_pushWord hfree hs fun _ h1 => completesIn_push hfree h1 fun _ h2 => completesIn_push hfree h2 fun _ h3 =>
    completesIn_push hfree h3 fun u h4 =>
      completesIn_readWord (s := u.setCcr { u.ccr with i := true }) hfree h4 fun _ _ h5 => completesIn_next h5

theorem completesIn_returnFromException (hfree : HoleFree cfg) (hs : s.cfg = cfg) :
    CompletesIn cfg s.returnFromException :=
  completesIn_pull hfree hs fun _ _ h1 => completesIn_pull hfree h1 fun _ _ h2 => completesIn_pull hfree h2 fun _ _ h3 =>
    completesIn_pullWord hfree h3 fun _ _ h4 => completesIn_next h4

theorem completesIn_takeReset (hfree : HoleFree cfg) (hs : s.cfg = cfg) : CompletesIn cfg s.takeReset :=
  completesIn_readWord (s := s.resetRegisters) hfree hs fun _ _ hu => completesIn_next hu

/-! ### The shapes of the families -/

theorem completesIn_withSrc {src : Src} {f : Byte → State → State} (hfree : HoleFree cfg) (hs : s.cfg = cfg)
    (hf : ∀ m u, (f m u).cfg = u.cfg) : CompletesIn cfg (withSrc src s f) := by
  cases src with
  | imm ii => exact completesIn_next ((hf ii s).trans hs)
  | mem ea =>
    rw [withSrc_mem (present_of_holeFree hfree hs _)]
    exact completesIn_next ((hf _ _).trans (by rwa [State.afterRead_cfg]))

theorem completesIn_readSrc16 {src : Src16} {k : Word → State → Out} (hfree : HoleFree cfg) (hs : s.cfg = cfg)
    (hk : ∀ v u, u.cfg = cfg → CompletesIn cfg (k v u)) : CompletesIn cfg (s.readSrc16 src k) := by
  cases src with
  | imm v => exact hk v s hs
  | dir dd => exact completesIn_readWord hfree hs hk

theorem completesIn_storeByte {ea : Ea} {v : Byte} (hfree : HoleFree cfg) (hs : s.cfg = cfg) :
    CompletesIn cfg (storeByte ea v s) :=
  completesIn_writeByte hfree hs fun _ hu => completesIn_next hu

theorem completesIn_rmwMem {f : Byte → Flags → Byte × Flags} {ea : Ea} (hfree : HoleFree cfg) (hs : s.cfg = cfg) :
    CompletesIn cfg (rmwMem f ea s) :=
  completesIn_readByte hfree hs fun _ _ h1 => completesIn_writeByte hfree h1 fun _ h2 => completesIn_next h2

theorem completesIn_rmwA {f : Byte → Flags → Byte × Flags} (hs : s.cfg = cfg) : CompletesIn cfg (rmwA f s) :=
  completesIn_next hs

theorem completesIn_rmwX {f : Byte → Flags → Byte × Flags} (hs : s.cfg = cfg) : CompletesIn cfg (rmwX f s) :=
  completesIn_next hs

theorem completesIn_condBranch {rr : Byte} {cond : Bool} (hs : s.cfg = cfg) : CompletesIn cfg (condBranch rr cond s) :=
  completesIn_next hs

theorem completesIn_inherent {f : State → State} (hs : s.cfg = cfg) (hf : ∀ u, (f u).cfg = u.cfg) :
    CompletesIn cfg (inherent f s) :=
  completesIn_next ((hf s).trans hs)

theorem completesIn_bitModify {f : Byte → Byte} {dd : Byte} (hfree : HoleFree cfg) (hs : s.cfg = cfg) :
    CompletesIn cfg (bitModify f dd s) :=
  completesIn_readByte hfree hs fun _ _ h1 => completesIn_writeByte hfree h1 fun _ h2 => completesIn_next h2

theorem completesIn_bitBranch {n : BitVec 3} {dd rr : Byte} {want : Bool} (hfree : HoleFree cfg) (hs : s.cfg = cfg) :
    CompletesIn cfg (bitBranch n dd rr want s) :=
  completesIn_readByte hfree hs fun _ _ hu => completesIn_next hu

/-! ### The instructions that share no shape -/

theorem cbeqStep_cfg (s : State) (form : CbeqForm) : (s.cbeqStep form).cfg = s.cfg := by
  cases form <;> rfl

theorem movStep_cfg (s : State) (form : MovForm) : (s.movStep form).cfg = s.cfg := by
  cases form <;> rfl

theorem completesIn_execCbeq {form : CbeqForm} {rr : Byte} (hfree : HoleFree cfg) (hs : s.cfg = cfg) :
    CompletesIn cfg (execCbeq form rr s) :=
  completesIn_readByte hfree hs fun _ u hu => completesIn_next ((cbeqStep_cfg u form).trans hu)

theorem completesIn_movSource {form : MovForm} {k : Byte → State → Out} (hfree : HoleFree cfg) (hs : s.cfg = cfg)
    (hk : ∀ v u, u.cfg = cfg → CompletesIn cfg (k v u)) : CompletesIn cfg (s.movSource form k) := by
  cases form with
  | imd ii dst => exact hk ii s hs
  | dd src dst | dixp src | ixpd dst => exact completesIn_readByte hfree hs hk

theorem completesIn_execMov {form : MovForm} (hfree : HoleFree cfg) (hs : s.cfg = cfg) : CompletesIn cfg (execMov form s) :=
  completesIn_movSource hfree hs fun v _ h1 => completesIn_writeByte hfree h1 fun u h2 =>
    completesIn_next ((movStep_cfg (u.setCcr (u.ccr.logic8 v)) form).trans h2)

theorem completesIn_execTst {ea : Ea} (hfree : HoleFree cfg) (hs : s.cfg = cfg) : CompletesIn cfg (execTst ea s) :=
  completesIn_readByte hfree hs fun _ _ hu => completesIn_next hu

theorem completesIn_execDbnz {ea : Ea} {rr : Byte} (hfree : HoleFree cfg) (hs : s.cfg = cfg) :
    CompletesIn cfg (execDbnz ea rr s) :=
  completesIn_readByte hfree hs fun _ _ h1 => completesIn_writeByte hfree h1 fun _ h2 => completesIn_next h2

theorem completesIn_execDiv (hs : s.cfg = cfg) : CompletesIn cfg (execDiv s) :=
  completesIn_inherent hs fun _ => by split <;> rfl

theorem completesIn_execDaa (hs : s.cfg = cfg) : CompletesIn cfg (execDaa s) :=
  completesIn_inherent hs fun _ => by split <;> rfl

/-- Where every address is implemented, every instruction in every form answers a next state, under the same parameters (R261). -/
theorem exec_completesIn (hfree : HoleFree cfg) (hs : s.cfg = cfg) (i : Instr) : CompletesIn cfg (exec i s) := by
  cases i with
  | brset n dd rr | brclr n dd rr => exact completesIn_bitBranch hfree hs
  | bset n dd | bclr n dd =>
    unfold exec
    exact completesIn_bitModify hfree hs
  | bra rr | brn rr | bhi rr | bls rr | bcc rr | bcs rr | bne rr | beq rr | bhcc rr | bhcs rr | bpl rr | bmi rr | bmc rr
  | bms rr | bil rr | bih rr | bge rr | blt rr | bgt rr | ble rr | bhs rr | blo rr => exact completesIn_condBranch hs
  | neg ea | com ea | lsr ea | ror ea | asr ea | lsl ea | rol ea | dec ea | inc ea | asl ea =>
    exact completesIn_rmwMem hfree hs
  | nega | coma | lsra | rora | asra | lsla | rola | deca | inca | asla => exact completesIn_rmwA hs
  | negx | comx | lsrx | rorx | asrx | lslx | rolx | decx | incx | aslx => exact completesIn_rmwX hs
  | tst ea => exact completesIn_execTst hfree hs
  | clr ea | sta ea | stx ea => exact completesIn_storeByte hfree hs
  | tsta | tstx | clra | clrx | clrh | mul | nsa | tap | tpa | txs | tsx | tax | txa | clc | sec | cli | sei | rsp | nop
  | stop | wait =>
    apply completesIn_inherent hs
    exact fun _ => rfl
  | div => exact completesIn_execDiv hs
  | daa => exact completesIn_execDaa hs
  | cbeq form rr => exact completesIn_execCbeq hfree hs
  | dbnz ea rr => exact completesIn_execDbnz hfree hs
  | cbeqa ii rr | cbeqx ii rr | dbnza rr | dbnzx rr | ais ii | aix ii | jmp ea => exact completesIn_next hs
  | mov form => exact completesIn_execMov hfree hs
  | ldhx src | cphx src => exact completesIn_readSrc16 hfree hs fun _ _ hu => completesIn_next hu
  | sthx dd => exact completesIn_writeWord hfree hs fun _ hu => completesIn_next hu
  | sub src | cmp src | sbc src | cpx src | and src | bit src | lda src | eor src | adc src | ora src | add src | ldx src =>
    apply completesIn_withSrc hfree hs
    exact fun _ _ => rfl
  | psha | pshx | pshh =>
    unfold exec
    apply completesIn_push hfree hs
    exact fun _ hu => completesIn_next hu
  | pula | pulx | pulh =>
    unfold exec
    apply completesIn_pull hfree hs
    exact fun _ _ hu => completesIn_next hu
  | bsr rr | jsr ea => exact completesIn_pushWord hfree hs fun _ hu => completesIn_next hu
  | rts =>
    unfold exec
    apply completesIn_pullWord hfree hs
    exact fun _ _ hu => completesIn_next hu
  | rti => exact completesIn_returnFromException hfree hs
  | swi => exact completesIn_takeException hfree hs

/-! ### A reset inside an instruction or an entry -/

theorem completesIn_replay {k : State → Out} (hfree : HoleFree cfg) (hk : ∀ u, u.cfg = cfg → CompletesIn cfg (k u))
    (accs : List Access) : ∀ {s : State}, s.cfg = cfg → CompletesIn cfg (s.replay accs k) := by
  induction accs with
  | nil => exact fun hs => hk _ hs
  | cons acc rest ih =>
    intro s hs
    cases acc with
    | read addr => exact completesIn_readByte hfree hs fun _ _ hu => ih hu
    | write addr v => exact completesIn_writeByte hfree hs fun _ hu => ih hu

theorem completesIn_orCutShort {accs : List Access} {whole : Out} (hfree : HoleFree cfg) (hs : s.cfg = cfg)
    (hwhole : CompletesIn cfg whole) : CompletesIn cfg (s.orCutShort accs whole) := by
  cases hcut : s.env.cut with
  | none => rwa [orCutShort_none hcut]
  | some n =>
    rw [orCutShort_some hcut]
    exact completesIn_replay hfree (fun _ hu => completesIn_takeReset hfree hu) _ hs

theorem completesIn_enterInterrupt {vector : Word} (hfree : HoleFree cfg) (hs : s.cfg = cfg) :
    CompletesIn cfg (s.enterInterrupt vector) :=
  completesIn_orCutShort hfree hs (completesIn_takeException hfree hs)

end

end Sys2Proof.Machine
end

section
/-! SUPPORT. The longest instruction has four bytes (R80): with four bytes at hand, the decoder never answers that they end too
early. -/

namespace Sys2Proof

/-- Whether a decoding had all the bytes it asked for. -/
def Untruncated (d : Decoded) : Prop :=
  d ≠ .error .truncated

section
variable {b c : Byte} {rest : List Byte}

@[simp] theorem untruncated_op0 (i : Instr) : Untruncated (op0 i rest) := by simp [Untruncated, op0]

@[simp] theorem untruncated_op1 (k : Byte → Instr) : Untruncated (op1 k (b :: rest)) := by simp [Untruncated, op1]

@[simp] theorem untruncated_op2 (k : Byte → Byte → Instr) : Untruncated (op2 k (b :: c :: rest)) := by simp [Untruncated, op2]

@[simp] theorem untruncated_opWord (k : Word → Instr) : Untruncated (opWord k (b :: c :: rest)) := untruncated_op2 _

@[simp] theorem untruncated_unassigned (b0 : Byte) : Untruncated (.error (.unassigned b0)) := by simp [Untruncated]

theorem untruncated_unassignedPage2 (b1 : Byte) : Untruncated (.error (.unassignedPage2 b1)) := by simp [Untruncated]

theorem untruncated_decodeBit (b0 : Byte) : Untruncated (decodeBit b0 (b :: c :: rest)) := by
  unfold decodeBit
  split
  · exact untruncated_op1 _
  · exact untruncated_op2 _

theorem untruncated_decodeBranch {row : Nat} (hrow : row < 16) : Untruncated (decodeBranch row (b :: rest)) := by
  interval_cases row <;> exact untruncated_op1 (rest := rest) _

theorem untruncated_decodeCol3 (b0 : Byte) (row : Nat) : Untruncated (decodeCol3 b0 row (b :: c :: rest)) := by
  unfold decodeCol3
  split
  · exact untruncated_op2 _
  · exact untruncated_op1 _
  · exact untruncated_op2 _
  · cases rmwRow row with
    | some k => exact untruncated_op1 _
    | none => exact untruncated_unassigned _

theorem untruncated_decodeCol4 (b0 : Byte) (row : Nat) : Untruncated (decodeCol4 b0 row (b :: c :: rest)) := by
  unfold decodeCol4
  split <;> simp

theorem untruncated_decodeCol5 (b0 : Byte) (row : Nat) : Untruncated (decodeCol5 b0 row (b :: c :: rest)) := by
  unfold decodeCol5
  split <;> simp

theorem untruncated_decodeCol6 (b0 : Byte) (row : Nat) : Untruncated (decodeCol6 b0 row (b :: c :: rest)) := by
  unfold decodeCol6
  split
  · exact untruncated_op2 _
  · exact untruncated_op0 _
  · exact untruncated_opWord _
  · exact untruncated_op2 _
  · exact untruncated_op2 _
  · cases rmwRow row with
    | some k => exact untruncated_op1 _
    | none => exact untruncated_unassigned _

theorem untruncated_decodeCol7 (b0 : Byte) (row : Nat) : Untruncated (decodeCol7 b0 row (b :: rest)) := by
  unfold decodeCol7
  split
  · exact untruncated_op1 _
  · exact untruncated_op0 _
  · exact untruncated_op1 _
  · exact untruncated_op1 _
  · exact untruncated_op1 _
  · cases rmwRow row with
    | some k => exact untruncated_op0 _
    | none => exact untruncated_unassigned _

theorem untruncated_decodeCol8 (b0 : Byte) (row : Nat) : Untruncated (decodeCol8 b0 row rest) := by
  unfold decodeCol8
  split <;> simp

theorem untruncated_decodeCol9 (b0 : Byte) (row : Nat) : Untruncated (decodeCol9 b0 row (b :: rest)) := by
  unfold decodeCol9
  split <;> simp

theorem untruncated_decodeColA (b0 : Byte) (row : Nat) : Untruncated (decodeColA b0 row (b :: rest)) := by
  unfold decodeColA
  split
  · exact untruncated_op1 _
  · exact untruncated_op1 _
  · exact untruncated_op1 _
  · cases srcRow row with
    | some k => exact untruncated_op1 _
    | none => exact untruncated_unassigned _

theorem untruncated_decodeMem {form : (Ea → Instr) → List Byte → Decoded} (hform : ∀ k, Untruncated (form k rest))
    (b0 : Byte) (row : Nat) : Untruncated (decodeMem b0 row form rest) := by
  unfold decodeMem
  split
  · exact hform _
  · exact untruncated_unassigned _

theorem untruncated_decodePage1 (b0 : Byte) : Untruncated (decodePage1 b0 (b :: c :: rest)) := by
  unfold decodePage1
  dsimp only
  split
  · exact untruncated_decodeBit _
  · exact untruncated_decodeBit _
  · exact untruncated_decodeBranch (b0.extractLsb' 0 4).isLt
  · exact untruncated_decodeCol3 _ _
  · exact untruncated_decodeCol4 _ _
  · exact untruncated_decodeCol5 _ _
  · exact untruncated_decodeCol6 _ _
  · exact untruncated_decodeCol7 _ _
  · exact untruncated_decodeCol8 _ _
  · exact untruncated_decodeCol9 _ _
  · exact untruncated_decodeColA _ _
  · exact untruncated_decodeMem (fun _ => untruncated_op1 _) _ _
  · exact untruncated_decodeMem (fun _ => untruncated_opWord _) _ _
  · exact untruncated_decodeMem (fun _ => untruncated_opWord _) _ _
  · exact untruncated_decodeMem (fun _ => untruncated_op1 _) _ _
  · exact untruncated_decodeMem (fun _ => untruncated_op0 _) _ _

theorem untruncated_decodeCol9E6 (b1 : Byte) (row : Nat) : Untruncated (decodeCol9E6 b1 row (b :: c :: rest)) := by
  unfold decodeCol9E6
  split
  · exact untruncated_op2 _
  · exact untruncated_op2 _
  · cases rmwRow row with
    | some k => exact untruncated_op1 _
    | none => exact untruncated_unassignedPage2 _

theorem untruncated_decodeMemPage2 {form : (Ea → Instr) → List Byte → Decoded} (hform : ∀ k, Untruncated (form k rest))
    (b1 : Byte) (row : Nat) : Untruncated (decodeMemPage2 b1 row form rest) := by
  unfold decodeMemPage2
  split
  · exact hform _
  · exact untruncated_unassignedPage2 _

theorem untruncated_decodePage2 (b1 : Byte) : Untruncated (decodePage2 (b1 :: b :: c :: rest)) := by
  unfold decodePage2
  dsimp only
  split
  · exact untruncated_decodeCol9E6 _ _
  · exact untruncated_decodeMemPage2 (fun _ => untruncated_opWord _) _ _
  · exact untruncated_decodeMemPage2 (fun _ => untruncated_op1 _) _ _
  · exact untruncated_unassignedPage2 _

/-- Four bytes are enough for every instruction (R80). -/
theorem untruncated_decode (b0 b1 : Byte) : Untruncated (decode (b0 :: b1 :: b :: c :: rest)) := by
  simp only [decode]
  split
  · exact untruncated_decodePage2 _
  · exact untruncated_decodePage1 _

end

end Sys2Proof
end

section
/-! SUPPORT. The machine of memory alone whose illegal opcodes reset: no step of it stops, so no run does (R261, R276, R290). -/

namespace Sys2Proof.Machine

/-- The parameters of a machine whose addresses are all memory and whose illegal opcodes reset. -/
def PlainPlatform (cfg : Platform) : Prop :=
  cfg.memMap = [] ∧ cfg.illegalAction = .reset

section
variable {cfg : Platform} {s : State}

theorem PlainPlatform.kindIn_eq_ram (hplain : PlainPlatform cfg) (addr : Word) : kindIn cfg.memMap addr = .ram := by
  rw [hplain.1]; rfl

theorem PlainPlatform.holeFree (hplain : PlainPlatform cfg) : HoleFree cfg := by
  intro addr
  rw [hplain.kindIn_eq_ram]
  decide

theorem fetchable_of_plain (hplain : PlainPlatform cfg) (hs : s.cfg = cfg) (addr : Word) : s.fetchable addr = true := by
  have hkind : s.kind addr = .ram := by rw [State.kind, hs, hplain.kindIn_eq_ram]
  rw [State.fetchable, hkind]

/-- In memory alone four bytes can always be fetched, so the bytes at PC never end too early. -/
theorem untruncated_fetchBytes (hplain : PlainPlatform cfg) (hs : s.cfg = cfg) : Untruncated (decode s.fetchBytes) := by
  simp only [State.fetchBytes, State.fetchFrom, fetchable_of_plain hplain hs, if_true]
  exact untruncated_decode _ _

theorem completesIn_illegalOpcode {bytes : List Byte} (hplain : PlainPlatform cfg) (hs : s.cfg = cfg) :
    CompletesIn cfg (s.illegalOpcode bytes) := by
  have haction : s.cfg.illegalAction = .reset := by rw [hs, hplain.2]
  rw [State.illegalOpcode, haction]
  exact completesIn_takeReset hplain.holeFree hs

theorem completesIn_decodeError {e : DecodeError} (hplain : PlainPlatform cfg) (hs : s.cfg = cfg) (he : e ≠ .truncated) :
    CompletesIn cfg (s.decodeError e) := by
  cases e with
  | truncated => exact absurd rfl he
  | unassigned b0 => exact completesIn_illegalOpcode hplain hs
  | unassignedPage2 b1 => exact completesIn_illegalOpcode hplain hs

theorem completesIn_runInstr (hplain : PlainPlatform cfg) (hs : s.cfg = cfg) : CompletesIn cfg s.runInstr := by
  have hbytes := untruncated_fetchBytes hplain hs
  unfold State.runInstr
  cases hdecode : decode s.fetchBytes with
  | ok i => exact completesIn_orCutShort hplain.holeFree hs (exec_completesIn hplain.holeFree hs i)
  | error e =>
    refine completesIn_orCutShort hplain.holeFree hs (completesIn_decodeError hplain hs ?_)
    rintro rfl
    exact hbytes hdecode

theorem completesIn_runningStep (hplain : PlainPlatform cfg) (hs : s.cfg = cfg) : CompletesIn cfg s.runningStep := by
  unfold State.runningStep
  split
  · exact completesIn_takeReset hplain.holeFree hs
  · split
    · exact completesIn_enterInterrupt hplain.holeFree hs
    · exact completesIn_runInstr hplain hs

theorem completesIn_waitingStep (hfree : HoleFree cfg) (hs : s.cfg = cfg) : CompletesIn cfg s.waitingStep := by
  unfold State.waitingStep
  split
  · exact completesIn_takeReset hfree hs
  · split
    · exact completesIn_enterInterrupt hfree hs
    · exact completesIn_next hs

theorem completesIn_stoppedStep (hs : s.cfg = cfg) : CompletesIn cfg s.stoppedStep := by
  unfold State.stoppedStep
  split
  · exact completesIn_next hs
  · split <;> exact completesIn_next hs

theorem completesIn_recoveringStep {cyclesLeft : Nat} {byReset : Bool} (hfree : HoleFree cfg) (hs : s.cfg = cfg) :
    CompletesIn cfg (s.recoveringStep cyclesLeft byReset) := by
  unfold State.recoveringStep
  split
  · exact completesIn_next hs
  · cases cyclesLeft with
    | succ n => exact completesIn_next hs
    | zero =>
      dsimp only
      split
      · exact completesIn_takeReset hfree hs
      · exact completesIn_enterInterrupt hfree hs

theorem completesIn_boundary (hplain : PlainPlatform cfg) (hs : s.cfg = cfg) : CompletesIn cfg s.boundary := by
  unfold State.boundary
  split
  · exact completesIn_runningStep hplain hs
  · exact completesIn_waitingStep hplain.holeFree hs
  · exact completesIn_stoppedStep hs
  · exact completesIn_recoveringStep hplain.holeFree hs

theorem step_completesIn (hplain : PlainPlatform cfg) (hs : s.cfg = cfg) : CompletesIn cfg (step s) := by
  obtain ⟨t, ht, hcfg⟩ := completesIn_boundary hplain hs
  exact ⟨t.tick, by rw [step, ht, mapNext_next], by rwa [State.tick_cfg]⟩

/-- A run goes on after a step that answers a next state. -/
theorem run_succ_of_step {t : State} (h : step s = .next t) (n : Nat) :
    Host.Core.run Sys2Proof.core (n + 1) s = Host.Core.run Sys2Proof.core n t := by
  have hstep : Sys2Proof.core.step s = .next t := h
  simp only [Host.Core.run, hstep]

theorem run_completesIn (hplain : PlainPlatform cfg) (n : Nat) :
    ∀ {s : State}, s.cfg = cfg → CompletesIn cfg (Host.Core.run Sys2Proof.core n s) := by
  induction n with
  | zero => exact fun hs => completesIn_next hs
  | succ n ih =>
    intro s hs
    obtain ⟨t, ht, hcfg⟩ := step_completesIn hplain hs
    rw [run_succ_of_step ht]
    exact ih hcfg

theorem neverStops_of_plain (hplain : PlainPlatform s.cfg) : NeverStops s := by
  intro n
  obtain ⟨t, ht, -⟩ := run_completesIn hplain n rfl
  exact ⟨t, ht⟩

/-- A run whose budget of steps is used up is over (D31). -/
theorem ended_of_budget {budget taken : Nat} (hend : EndCondition.steps budget ∈ s.cfg.runEnd) (h : budget ≤ taken) :
    s.ended taken = true := by
  rw [State.ended, List.any_eq_true]
  exact ⟨_, hend, decide_eq_true h⟩

theorem runToEnd_of_not_ended {t : State} {taken : Nat} (h : s.ended taken = false) (hstep : step s = .next t) (fuel : Nat) :
    s.runToEnd taken (fuel + 1) = t.runToEnd (taken + 1) fuel := by
  simp [State.runToEnd, h, hstep]

/-- With `fuel` steps of its budget left, a run is over within `fuel` steps, in the state that many steps lead to. -/
theorem runToEnd_of_budget (hplain : PlainPlatform cfg) (fuel : Nat) : ∀ {s : State} {taken : Nat}, s.cfg = cfg →
    EndCondition.steps (taken + fuel) ∈ cfg.runEnd →
    ∃ k t, k ≤ fuel ∧ Host.Core.run Sys2Proof.core k s = .next t ∧ t.ended (taken + k) = true ∧
      s.runToEnd taken fuel = some (.next t) := by
  induction fuel with
  | zero =>
    intro s taken hs hend
    have hended : s.ended taken = true := ended_of_budget (hs ▸ hend) (Nat.le_refl _)
    exact ⟨0, s, Nat.le_refl _, rfl, hended, runToEnd_of_ended hended 0⟩
  | succ fuel ih =>
    intro s taken hs hend
    cases hended : s.ended taken with
    | true => exact ⟨0, s, Nat.zero_le _, rfl, hended, runToEnd_of_ended hended _⟩
    | false =>
      obtain ⟨u, hstep, hu⟩ := step_completesIn hplain hs
      obtain ⟨k, t, hk, hrun, ht, hover⟩ := ih (taken := taken + 1) hu (by rwa [Nat.add_right_comm])
      refine ⟨k + 1, t, Nat.succ_le_succ hk, ?_, ?_, ?_⟩
      · rwa [run_succ_of_step hstep]
      · rwa [← Nat.add_assoc, Nat.add_right_comm]
      · rwa [runToEnd_of_not_ended hended hstep]

end

/-- Settles O12: every step of a plain machine answers a next state with the same parameters, hence every run does, by induction on
the number of steps; and a run with a budget is over within it, by induction on what is left of the budget. -/
theorem plainMachineNeverStops : Obligations.PlainMachineNeverStops := by
  unfold Obligations.PlainMachineNeverStops
  intro s hmap haction
  have hplain : PlainPlatform s.cfg := ⟨hmap, haction⟩
  refine ⟨neverStops_of_plain hplain, fun n hend => ?_⟩
  obtain ⟨k, t, hk, hrun, hended, hover⟩ := runToEnd_of_budget hplain n (taken := 0) rfl (by rwa [Nat.zero_add])
  exact ⟨k, t, hk, hrun, by rwa [Nat.zero_add] at hended, hover⟩

end Sys2Proof.Machine
end

section
/-! SUPPORT. An address that holds memory (R60): it answers, a read of it gives the byte memory holds there and changes nothing. -/

namespace Sys2Proof.Machine

section
variable {s : State} {addr : Word}

theorem present_of_memoryAt (h : s.memoryAt addr) : s.present addr = true := by
  rcases h with h | h <;> simp [State.present, h]

theorem byteAt_of_memoryAt (h : s.memoryAt addr) : s.byteAt addr = s.peek addr := by
  rcases h with h | h <;> simp [State.byteAt, h]

theorem afterRead_of_memoryAt (h : s.memoryAt addr) : s.afterRead addr = s := by
  rcases h with h | h <;> simp [State.afterRead, h]

theorem readByte_of_memoryAt (h : s.memoryAt addr) (k : Byte → State → Out) : s.readByte addr k = k (s.peek addr) s := by
  rw [readByte_of_present (present_of_memoryAt h), byteAt_of_memoryAt h, afterRead_of_memoryAt h]

theorem readWord_of_memoryAt (hhi : s.memoryAt addr) (hlo : s.memoryAt (addr + 1)) (k : Word → State → Out) :
    s.readWord addr k = k (wordOf (s.peek addr) (s.peek (addr + 1))) s := by
  rw [State.readWord, readByte_of_memoryAt hhi, readByte_of_memoryAt hlo]

end

/-! ### The mask history plays no part in what is fetched or accessed -/

theorem setMask_fetchBytes (s : State) (m : MaskHistory) : (s.setMask m).fetchBytes = s.fetchBytes := rfl

theorem setMask_accesses (s : State) (m : MaskHistory) (i : Instr) : (s.setMask m).accesses i = s.accesses i := rfl

theorem setMask_entryAccesses (s : State) (m : MaskHistory) (ret vector : Word) :
    (s.setMask m).entryAccesses ret vector = s.entryAccesses ret vector := rfl

/-! ### What begins at a boundary -/

theorem boundary_of_reset {s : State} (hrun : s.run = .running ∨ s.run = .waiting) (hreset : s.env.reset = true) :
    s.boundary = s.takeReset := by
  rcases hrun with h | h <;> simp [State.boundary, State.runningStep, State.waitingStep, h, hreset]

theorem boundary_of_recognised {s : State} {src : IntSource} (hrun : s.run = .running) (hreset : s.env.reset = false)
    (hsrc : s.recognised = some src) : s.boundary = (s.setMask .none).enterInterrupt src.vector := by
  simp [State.boundary, State.runningStep, hrun, hreset, hsrc]

theorem boundary_of_not_recognised {s : State} (hrun : s.run = .running) (hreset : s.env.reset = false)
    (hsrc : s.recognised = none) : s.boundary = (s.setMask .none).runInstr := by
  simp [State.boundary, State.runningStep, hrun, hreset, hsrc]

theorem runInstr_of_decode_ok {s : State} {i : Instr} (h : decode s.fetchBytes = .ok i) :
    s.runInstr = s.orCutShort (s.accesses i) (exec i s) := by
  rw [State.runInstr, h]

theorem runInstr_of_decode_error {s : State} {e : DecodeError} (h : decode s.fetchBytes = .error e) :
    s.runInstr = s.orCutShort [] (s.decodeError e) := by
  rw [State.runInstr, h]

end Sys2Proof.Machine
end

section
/-! CERTIFICATES. Reset: the state it starts from, the sequence, and a reset inside an instruction or an entry. -/

namespace Sys2Proof.Machine

/-- Settles O9: the memory of the reset state lists nothing, it is running, and no mask history is left. -/
theorem resetInv : Obligations.ResetInv :=
  ⟨reset_mem_wf, trivial, trivial⟩

/-- Settles O60, by evaluating the reset state; the memory that lists nothing reads alike at every address. -/
theorem resetState : Obligations.ResetState := by
  unfold Obligations.ResetState
  exact ⟨rfl, rfl, rfl, rfl, rfl, rfl, rfl, fun _ => rfl⟩

/-- The reset sequence where the vector lies in memory (R291). -/
theorem takeReset_of_memoryAt {s : State} (hhi : s.memoryAt s.cfg.resetVector) (hlo : s.memoryAt (s.cfg.resetVector + 1)) :
    s.takeReset = .next (s.resetRegisters.setPc (wordOf (s.peek s.cfg.resetVector) (s.peek (s.cfg.resetVector + 1)))) :=
  readWord_of_memoryAt (s := s.resetRegisters) hhi hlo _

/-- Settles O59: a reset at the boundary is the reset sequence; one that cuts off what begins there leaves the accesses made by then,
and none where the bytes spell no instruction. -/
theorem resetSequence : Obligations.ResetSequence := by
  unfold Obligations.ResetSequence
  refine ⟨fun s hrun hreset hhi hlo => ?_, fun s n hrun hreset hcut => ?_⟩
  · refine ⟨_, by rw [step, boundary_of_reset hrun hreset, takeReset_of_memoryAt hhi hlo, mapNext_next], ?_⟩
    exact ⟨rfl, rfl, rfl, rfl, rfl, rfl, rfl, rfl, rfl, rfl, rfl, rfl⟩
  · have hcut' : (s.setMask .none).env.cut = some n := hcut
    refine ⟨fun src hsrc => ?_, fun i hsrc hdecode => ?_, fun e hsrc hdecode => ?_⟩
    · rw [step, boundary_of_recognised hrun hreset hsrc, State.enterInterrupt, orCutShort_some hcut', setMask_entryAccesses,
        State.setMask_pc]
    · rw [step, boundary_of_not_recognised hrun hreset hsrc, runInstr_of_decode_ok (by rwa [setMask_fetchBytes]),
        orCutShort_some hcut', setMask_accesses]
    · rw [step, boundary_of_not_recognised hrun hreset hsrc, runInstr_of_decode_error (by rwa [setMask_fetchBytes]),
        orCutShort_some hcut', List.take_nil, replay_nil]

end Sys2Proof.Machine
end

section
/-! CERTIFICATES. TPA and TAP: the condition code register as a byte and back (R33). -/

namespace Sys2Proof.Machine

/-- Bits 7, 4, 3, 2, 1, 0 of the byte that TPA delivers are the flags, whatever the other two are. -/
@[simp] theorem ofCcrByte_toByte (f : Flags) (bits65 : BitVec 2) : Flags.ofCcrByte (f.toByte bits65) = f := by
  obtain ⟨v, h, i, n, z, c⟩ := f
  revert v h i n z c bits65
  decide

theorem maskAfterTap_eq_ite (oldI newI : Bool) :
    maskAfterTap oldI newI = if !oldI && newI then .justSet else if oldI && !newI then .justCleared else .none := by
  cases oldI <;> cases newI <;> rfl

theorem exec_tpa (s : State) : exec .tpa s = .next { s with a := s.ccr.toByte s.cfg.ccrBits65, pc := s.pc + 1 } := rfl

theorem exec_tap (s : State) :
    exec .tap s = .next { s with
      ccr := Flags.ofCcrByte s.a, mask := maskAfterTap s.ccr.i (Flags.ofCcrByte s.a).i, pc := s.pc + 1 } := rfl

/-- Settles O44: the two meanings, and that the flags survive the way through the byte. -/
theorem flagTransfers : Obligations.FlagTransfers := by
  unfold Obligations.FlagTransfers
  refine ⟨⟨⟨rfl, rfl, rfl⟩, rfl, rfl, rfl⟩, exec_tpa, fun s => ?_, fun s t u htpa htap => ?_⟩
  · rw [exec_tap, maskAfterTap_eq_ite]
    rfl
  · rw [exec_tpa] at htpa
    cases htpa
    rw [exec_tap] at htap
    cases htap
    exact ofCcrByte_toByte _ _

end Sys2Proof.Machine
end

section
/-! SUPPORT. What an instruction may change, beside what its accesses do (10_state.md R39; 20_memory.md R56): the frame, and
what each update and each access does to it. -/

namespace Sys2Proof.Machine

/-- The frame of an instruction `i` that began in `s`: it has reached `t`, where making its accesses alone has reached `w`. The registers
and the hidden state are as in `s` but for what `i` is said to write; what accesses change is as in `w`. -/
structure Frame (i : Instr) (s w t : State) : Prop where
  a : Reg.a ∉ regsWritten i → t.a = s.a
  h : Reg.h ∉ regsWritten i → t.h = s.h
  x : Reg.x ∉ regsWritten i → t.x = s.x
  sp : Reg.sp ∉ regsWritten i → t.sp = s.sp
  env : t.env = s.env
  future : t.future = s.future
  cfg : t.cfg = s.cfg
  run : i ∉ [Instr.stop, .wait, .swi] → t.run = s.run
  irqEnable : i ≠ .stop → t.irqEnable = s.irqEnable
  mask : i ∉ [Instr.cli, .sei, .tap, .rti] → t.mask = s.mask
  mem : t.mem = w.mem
  devOut : t.devOut = w.devOut
  draws : i ∉ [Instr.div, .daa] → t.draws = w.draws
  accessCfg : w.cfg = s.cfg

/-- What a row of the table of flag writes promises of the flags before and after (R39). -/
def FlagRow.Holds (row : FlagRow) (f g : Flags) : Prop :=
  row.v.Holds f.v g.v ∧ row.h.Holds f.h g.h ∧ row.i.Holds f.i g.i ∧ row.n.Holds f.n g.n ∧ row.z.Holds f.z g.z ∧
    row.c.Holds f.c g.c

/-- An instruction on its way, when the flags are `f`. -/
structure Begun (i : Instr) (f : Flags) (s w t : State) : Prop extends Frame i s w t where
  ccr : t.ccr = f

/-- An instruction that is over, with the flags its row of the table allows. -/
structure Done (i : Instr) (s w t : State) : Prop extends Frame i s w t where
  flags : (flagRow i).Holds s.ccr t.ccr

section
variable {i : Instr} {f : Flags} {s w t : State}

theorem Begun.refl : Begun i s.ccr s s s :=
  { a := fun _ => rfl, h := fun _ => rfl, x := fun _ => rfl, sp := fun _ => rfl, env := rfl, future := rfl, cfg := rfl,
    run := fun _ => rfl, irqEnable := fun _ => rfl, mask := fun _ => rfl, mem := rfl, devOut := rfl, draws := fun _ => rfl,
    accessCfg := rfl, ccr := rfl }

/-! ### Updates -/

theorem Frame.setA (h : Frame i s w t) (hreg : Reg.a ∈ regsWritten i) (v : Byte) : Frame i s w (t.setA v) :=
  { h with a := absurd hreg }

theorem Frame.setH (h : Frame i s w t) (hreg : Reg.h ∈ regsWritten i) (v : Byte) : Frame i s w (t.setH v) :=
  { h with h := absurd hreg }

theorem Frame.setX (h : Frame i s w t) (hreg : Reg.x ∈ regsWritten i) (v : Byte) : Frame i s w (t.setX v) :=
  { h with x := absurd hreg }

theorem Frame.setHx (h : Frame i s w t) (hh : Reg.h ∈ regsWritten i) (hx : Reg.x ∈ regsWritten i) (v : Word) :
    Frame i s w (t.setHx v) :=
  { h with h := absurd hh, x := absurd hx }

theorem Frame.setSp (h : Frame i s w t) (hreg : Reg.sp ∈ regsWritten i) (v : Word) : Frame i s w (t.setSp v) :=
  { h with sp := absurd hreg }

theorem Frame.setPc (h : Frame i s w t) (v : Word) : Frame i s w (t.setPc v) :=
  { h with }

theorem Frame.advance (h : Frame i s w t) (len : Nat) : Frame i s w (t.advance len) :=
  h.setPc _

theorem Frame.branch (h : Frame i s w t) (len : Nat) (rr : Byte) (cond : Bool) : Frame i s w (t.branch len rr cond) :=
  h.setPc _

theorem Frame.setCcr (h : Frame i s w t) (f : Flags) : Frame i s w (t.setCcr f) :=
  { h with }

theorem Frame.setRun (h : Frame i s w t) (hi : i ∈ [Instr.stop, .wait, .swi]) (r : RunState) : Frame i s w (t.setRun r) :=
  { h with run := absurd hi }

theorem Frame.setIrqEnable (h : Frame i s w t) (hi : i = .stop) (b : Bool) : Frame i s w (t.setIrqEnable b) :=
  { h with irqEnable := absurd hi }

theorem Frame.setMask (h : Frame i s w t) (hi : i ∈ [Instr.cli, .sei, .tap, .rti]) (m : MaskHistory) :
    Frame i s w (t.setMask m) :=
  { h with mask := absurd hi }

theorem Frame.drew (h : Frame i s w t) (hi : i ∈ [Instr.div, .daa]) (n : Nat) : Frame i s w (t.drew n) :=
  { h with draws := absurd hi }

/-! ### Accesses -/

theorem Frame.kind_eq (h : Frame i s w t) (addr : Word) : w.kind addr = t.kind addr := by
  rw [State.kind, State.kind, h.accessCfg, h.cfg]

theorem Frame.present_eq (h : Frame i s w t) (addr : Word) : w.present addr = t.present addr := by
  rw [State.present, State.present, h.kind_eq]

theorem Begun.afterRead (h : Begun i f s w t) (addr : Word) : Begun i f s (w.afterRead addr) (t.afterRead addr) := by
  unfold State.afterRead
  rw [h.kind_eq]
  split
  · exact { h with draws := fun hi => congrArg (· + 1) (h.draws hi) }
  · exact h

theorem Begun.afterWrite (h : Begun i f s w t) (addr : Word) (v : Byte) :
    Begun i f s (w.afterWrite addr v) (t.afterWrite addr v) := by
  unfold State.afterWrite
  rw [h.kind_eq]
  split
  · exact { h with mem := congrArg (fun m : Memory => m.write addr.toNat v) h.mem }
  · exact h
  · exact { h with devOut := congrArg ((addr.toNat, v) :: ·) h.devOut }
  · exact h

theorem Begun.moveSp (h : Begun i f s w t) (hreg : Reg.sp ∈ regsWritten i) (v : Word) : Begun i f s w (t.setSp v) :=
  { h.toFrame.setSp hreg v with ccr := h.ccr }

theorem Begun.setFlags (h : Begun i f s w t) (g : Flags) : Begun i g s w (t.setCcr g) :=
  { h.toFrame.setCcr g with ccr := rfl }

theorem Done.advance (h : Done i s w t) (len : Nat) : Done i s w (t.advance len) :=
  ⟨h.toFrame.advance len, h.flags⟩

/-! ### Flags -/

theorem FlagRow.Holds.of_eq {row : FlagRow} {f g k : Flags} (hfg : f = g) (h : row.Holds f k) : row.Holds g k :=
  hfg ▸ h

/-- The row of the instructions that change no flag. -/
def FlagRow.keepAll : FlagRow := ⟨.keep, .keep, .keep, .keep, .keep, .keep⟩

theorem holds_self (f : Flags) : FlagRow.keepAll.Holds f f :=
  ⟨rfl, rfl, rfl, rfl, rfl, rfl⟩

theorem holds_ofAdd (f : Flags) (r : AddResult) :
    FlagRow.Holds ⟨.compute, .compute, .keep, .compute, .compute, .compute⟩ f (f.ofAdd r) :=
  ⟨trivial, trivial, rfl, trivial, trivial, trivial⟩

theorem holds_ofByte (f : Flags) (r : ByteResult) :
    FlagRow.Holds ⟨.compute, .keep, .keep, .compute, .compute, .compute⟩ f (f.ofByte r) :=
  ⟨trivial, rfl, rfl, trivial, trivial, trivial⟩

theorem holds_ofStep (f : Flags) (r : ByteResult) :
    FlagRow.Holds ⟨.compute, .keep, .keep, .compute, .compute, .keep⟩ f (f.ofStep r) :=
  ⟨trivial, rfl, rfl, trivial, trivial, rfl⟩

theorem holds_ofWord (f : Flags) (r : WordFlags) :
    FlagRow.Holds ⟨.compute, .keep, .keep, .compute, .compute, .compute⟩ f (f.ofWord r) :=
  ⟨trivial, rfl, rfl, trivial, trivial, trivial⟩

theorem holds_logic8 (f : Flags) (r : Byte) :
    FlagRow.Holds ⟨.clear, .keep, .keep, .compute, .compute, .keep⟩ f (f.logic8 r) :=
  ⟨rfl, rfl, rfl, trivial, trivial, rfl⟩

theorem holds_logic8_zero (f : Flags) : FlagRow.Holds ⟨.clear, .keep, .keep, .clear, .set, .keep⟩ f (f.logic8 0) :=
  ⟨rfl, rfl, rfl, rfl, rfl, rfl⟩

theorem holds_logic16 (f : Flags) (r : Word) :
    FlagRow.Holds ⟨.clear, .keep, .keep, .compute, .compute, .keep⟩ f (f.logic16 r) :=
  ⟨rfl, rfl, rfl, trivial, trivial, rfl⟩

theorem holds_ofCom (f : Flags) (r : Byte) : FlagRow.Holds ⟨.clear, .keep, .keep, .compute, .compute, .set⟩ f (f.ofCom r) :=
  ⟨rfl, rfl, rfl, trivial, trivial, rfl⟩

/-- A byte shifted right has bit 7 clear (R168). -/
theorem lsr8_n (old : Byte) : (lsr8 old).n = false := by
  have hold := old.isLt
  simp only [lsr8, shiftResult, byte_msb, BitVec.toNat_ofNat, decide_eq_false_iff_not]
  omega

theorem holds_ofByte_lsr8 (f : Flags) (old : Byte) :
    FlagRow.Holds ⟨.compute, .keep, .keep, .clear, .compute, .compute⟩ f (f.ofByte (lsr8 old)) :=
  ⟨trivial, rfl, rfl, lsr8_n old, trivial, trivial⟩

theorem holds_load (f g : Flags) : FlagRow.Holds ⟨.load, .load, .load, .load, .load, .load⟩ f g :=
  ⟨trivial, trivial, trivial, trivial, trivial, trivial⟩

end

end Sys2Proof.Machine
end

section
/-! SUPPORT. Executing an instruction against making its accesses alone: they answer a next state together or stop with the
same fault (20_memory.md R56, R60). One rule per operation. -/

namespace Sys2Proof.Machine

/-- Two answers that are both a next state, with `P` between them, or the same fault. -/
def Agree (P : State → State → Prop) : Out → Out → Prop
  | .next u, .next t => P u t
  | .fault f, .fault g => f = g
  | _, _ => False

/-- The answer `o` agrees with making the accesses `accs` from `w` alone: `P` holds between the two next states, or the fault is the
same. -/
def Follows (accs : List Access) (w : State) (P : State → State → Prop) (o : Out) : Prop :=
  Agree P (w.replay accs .next) o

theorem follows_next_iff {accs : List Access} {w t : State} {P : State → State → Prop} :
    Follows accs w P (.next t) ↔ ∃ u, w.replay accs .next = .next u ∧ P u t := by
  unfold Follows
  cases w.replay accs .next <;> simp [Agree]

theorem follows_fault_iff {accs : List Access} {w : State} {P : State → State → Prop} {f : Fault} :
    Follows accs w P (.fault f) ↔ w.replay accs .next = .fault f := by
  unfold Follows
  cases w.replay accs .next <;> simp [Agree]

section
variable {i : Instr} {f : Flags} {s w t : State} {P : State → State → Prop} {rest : List Access}

theorem follows_next (h : P w t) : Follows [] w P (.next t) := h

theorem follows_readByte {addr : Word} {k : Byte → State → Out} (h : Begun i f s w t)
    (hk : ∀ w1 t1, Begun i f s w1 t1 → t1.sp = t.sp → Follows rest w1 P (k (t.byteAt addr) t1)) :
    Follows (.read addr :: rest) w P (t.readByte addr k) := by
  unfold Follows
  rw [replay_read, State.readByte, State.readByte, h.present_eq]
  split
  · exact hk _ _ (h.afterRead addr) (State.afterRead_sp t addr)
  · rfl

theorem follows_writeByte {addr : Word} {v : Byte} {k : State → Out} (h : Begun i f s w t)
    (hk : ∀ w1 t1, Begun i f s w1 t1 → t1.sp = t.sp → Follows rest w1 P (k t1)) :
    Follows (.write addr v :: rest) w P (t.writeByte addr v k) := by
  unfold Follows
  rw [replay_write, State.writeByte, State.writeByte, h.present_eq]
  split
  · exact hk _ _ (h.afterWrite addr v) (State.afterWrite_sp t addr v)
  · rfl

theorem follows_readWord {addr : Word} {k : Word → State → Out} (h : Begun i f s w t)
    (hk : ∀ v w1 t1, Begun i f s w1 t1 → Follows rest w1 P (k v t1)) :
    Follows (.read addr :: .read (addr + 1) :: rest) w P (t.readWord addr k) :=
  follows_readByte h fun _ _ h1 _ => follows_readByte h1 fun _ _ h2 _ => hk _ _ _ h2

theorem follows_writeWord {addr v : Word} {k : State → Out} (h : Begun i f s w t)
    (hk : ∀ w1 t1, Begun i f s w1 t1 → Follows rest w1 P (k t1)) :
    Follows (.write addr (hiByte v) :: .write (addr + 1) (loByte v) :: rest) w P (t.writeWord addr v k) :=
  follows_writeByte h fun _ _ h1 _ => follows_writeByte h1 fun _ _ h2 _ => hk _ _ h2

/-! ### The stack -/

theorem follows_push {addr : Word} {v : Byte} {k : State → Out} (h : Begun i f s w t) (hreg : Reg.sp ∈ regsWritten i)
    (haddr : t.sp = addr) (hk : ∀ w1 t1, Begun i f s w1 t1 → t1.sp = addr - 1 → Follows rest w1 P (k t1)) :
    Follows (.write addr v :: rest) w P (t.push v k) := by
  subst haddr
  exact follows_writeByte h fun _ _ h1 hsp => hk _ _ (h1.moveSp hreg _) (congrArg (· - 1) hsp)

/-- The pull that finds SP `n` above `base` (R9). -/
theorem follows_pull {base : Word} {n : Nat} {k : Byte → State → Out} (h : Begun i f s w t) (hreg : Reg.sp ∈ regsWritten i)
    (hbase : t.sp = base + BitVec.ofNat 16 n)
    (hk : ∀ v w1 t1, Begun i f s w1 t1 → t1.sp = base + BitVec.ofNat 16 (n + 1) → Follows rest w1 P (k v t1)) :
    Follows (.read (base + BitVec.ofNat 16 (n + 1)) :: rest) w P (t.pull k) := by
  have haddr : t.sp + 1 = base + BitVec.ofNat 16 (n + 1) := by
    rw [hbase, BitVec.ofNat_add, BitVec.add_assoc]
    rfl
  rw [← haddr] at hk ⊢
  exact follows_readByte (h.moveSp hreg _) fun _ _ h1 hsp => hk _ _ _ h1 hsp

theorem follows_pushWord {addr v : Word} {k : State → Out} (h : Begun i f s w t) (hreg : Reg.sp ∈ regsWritten i)
    (haddr : t.sp = addr) (hk : ∀ w1 t1, Begun i f s w1 t1 → t1.sp = addr - 2 → Follows rest w1 P (k t1)) :
    Follows (.write addr (loByte v) :: .write (addr - 1) (hiByte v) :: rest) w P (t.pushWord v k) :=
  follows_push h hreg haddr fun _ _ h1 hsp1 => follows_push h1 hreg hsp1 fun _ _ h2 hsp2 =>
    hk _ _ h2 (hsp2.trans (sub_sub addr 1 1))

theorem follows_pullWord {base : Word} {n : Nat} {k : Word → State → Out} (h : Begun i f s w t)
    (hreg : Reg.sp ∈ regsWritten i) (hbase : t.sp = base + BitVec.ofNat 16 n)
    (hk : ∀ v w1 t1, Begun i f s w1 t1 → Follows rest w1 P (k v t1)) :
    Follows (.read (base + BitVec.ofNat 16 (n + 1)) :: .read (base + BitVec.ofNat 16 (n + 1 + 1)) :: rest) w P
      (t.pullWord k) :=
  follows_pull h hreg hbase fun _ _ _ h1 hsp1 => follows_pull h1 hreg hsp1 fun _ _ _ h2 _ => hk _ _ _ h2

theorem sp_eq_add_zero (s : State) : s.sp = s.sp + BitVec.ofNat 16 0 := (BitVec.add_zero s.sp).symm

/-! ### Exceptions -/

/-- An exception entry makes the accesses listed for it (R266 to R268). -/
theorem follows_takeException (s : State) (ret vector : Word) :
    Follows (s.entryAccesses ret vector) s (Done .swi s) (s.takeException ret vector) := by
  have hreg : Reg.sp ∈ regsWritten .swi := .head _
  refine follows_pushWord .refl hreg rfl fun w1 t1 h1 hsp1 => ?_
  rw [h1.x (by decide)]
  refine follows_push h1 hreg hsp1 fun w2 t2 h2 hsp2 => ?_
  rw [h2.a (by decide)]
  refine follows_push h2 hreg (hsp2.trans (sub_sub s.sp 2 1)) fun w3 t3 h3 hsp3 => ?_
  rw [h3.ccr, h3.cfg]
  refine follows_push h3 hreg (hsp3.trans (sub_sub s.sp 3 1)) fun w4 t4 h4 _ => ?_
  rw [h4.ccr]
  refine follows_readWord (h4.setFlags { s.ccr with i := true }) fun target w5 t5 h5 => ?_
  have hflags : (flagRow .swi).Holds s.ccr t5.ccr := h5.ccr ▸ ⟨rfl, rfl, rfl, rfl, rfl, rfl⟩
  exact follows_next ⟨(h5.setPc target).setRun (by decide) .running, hflags⟩

/-- A return from an exception makes five pulls (R270). -/
theorem follows_returnFromException (s : State) : Follows (s.pullAccesses 5) s (Done .rti s) s.returnFromException := by
  have hreg : Reg.sp ∈ regsWritten .rti := by decide
  refine follows_pull .refl hreg (sp_eq_add_zero s) fun c w1 t1 h1 hsp1 => ?_
  refine follows_pull h1 hreg hsp1 fun a w2 t2 h2 hsp2 => ?_
  refine follows_pull h2 hreg hsp2 fun x w3 t3 h3 hsp3 => ?_
  refine follows_pullWord h3 hreg hsp3 fun target w4 t4 h4 => ?_
  exact follows_next
    ⟨((((h4.setCcr _).setA (by decide) _).setX (by decide) _).setPc _).setMask (by decide) _, holds_load _ _⟩

/-! ### The shapes of the families -/

theorem follows_withSrc {src : Src} {g : Byte → State → State} (hg : ∀ m w t, Begun i s.ccr s w t → Done i s w (g m t)) :
    Follows (s.srcAccesses src) s (Done i s) (withSrc src s g) := by
  cases src with
  | imm ii => exact follows_next ((hg ii s s .refl).advance _)
  | mem ea =>
    rw [withSrc, State.readSrc]
    exact follows_readByte .refl fun _ _ h _ => follows_next ((hg _ _ _ h).advance _)

theorem follows_readSrc16 {src : Src16} {k : Word → State → Out}
    (hk : ∀ m w t, Begun i s.ccr s w t → Follows [] w (Done i s) (k m t)) :
    Follows (src16Accesses src) s (Done i s) (s.readSrc16 src k) := by
  cases src with
  | imm v => exact hk v s s .refl
  | dir dd => exact follows_readWord .refl hk

theorem follows_storeByte {ea : Ea} {v : Byte} (hflags : ∀ f, (flagRow i).Holds f (f.logic8 v)) :
    Follows [.write (s.ea ea) v] s (Done i s) (storeByte ea v s) :=
  follows_writeByte .refl fun _ _ h _ => follows_next ⟨(h.setCcr _).advance _, .of_eq h.ccr (hflags _)⟩

section
variable {op : Byte → Flags → Byte × Flags} (hflags : ∀ old f, (flagRow i).Holds f (op old f).2)
include hflags

theorem follows_rmwMem {ea : Ea} :
    Follows (s.updateAccesses (s.ea ea) fun m => (op m s.ccr).1) s (Done i s) (rmwMem op ea s) := by
  refine follows_readByte (i := i) .refl fun w1 t1 h1 _ => ?_
  rw [h1.ccr]
  exact follows_writeByte h1 fun _ _ h2 _ => follows_next ⟨(h2.setCcr _).advance _, hflags _ _⟩

theorem follows_rmwA (hreg : Reg.a ∈ regsWritten i) : Follows [] s (Done i s) (rmwA op s) :=
  follows_next ⟨((Begun.refl.setA hreg _).setCcr _).advance _, hflags _ _⟩

theorem follows_rmwX (hreg : Reg.x ∈ regsWritten i) : Follows [] s (Done i s) (rmwX op s) :=
  follows_next ⟨((Begun.refl.setX hreg _).setCcr _).advance _, hflags _ _⟩

end

theorem follows_pull_only {g : Byte → State → State} (hreg : Reg.sp ∈ regsWritten i)
    (hg : ∀ v w t, Begun i s.ccr s w t → Done i s w (g v t)) :
    Follows (s.pullAccesses 1) s (Done i s) (s.pull fun v t => .next ((g v t).advance 1)) :=
  follows_pull .refl hreg (sp_eq_add_zero s) fun _ _ _ h _ => follows_next ((hg _ _ _ h).advance 1)

theorem follows_inherent {g : State → State} (h : Done i s s (g s)) : Follows [] s (Done i s) (inherent g s) :=
  follows_next (h.advance _)

section
variable (hrow : flagRow i = .keepAll)
include hrow

theorem follows_condBranch {rr : Byte} {cond : Bool} : Follows [] s (Done i s) (condBranch rr cond s) :=
  follows_next ⟨Begun.refl.branch _ _ _, hrow ▸ holds_self _⟩

theorem follows_bitModify {g : Byte → Byte} {dd : Byte} :
    Follows (s.updateAccesses (directAddr dd) g) s (Done i s) (bitModify g dd s) :=
  follows_readByte .refl fun _ _ h1 _ => follows_writeByte h1 fun _ _ h2 _ =>
    follows_next ⟨h2.advance _, .of_eq h2.ccr (hrow ▸ holds_self _)⟩

theorem follows_push_only {v : Byte} (hreg : Reg.sp ∈ regsWritten i) :
    Follows [.write s.sp v] s (Done i s) (s.push v fun t => .next (t.advance 1)) :=
  follows_push .refl hreg rfl fun _ _ h _ => follows_next ⟨h.advance _, .of_eq h.ccr (hrow ▸ holds_self _)⟩

theorem follows_call {ret target : Word} (hreg : Reg.sp ∈ regsWritten i) :
    Follows (s.callAccesses ret) s (Done i s) (s.pushWord ret fun t => .next (t.setPc target)) :=
  follows_pushWord .refl hreg rfl fun _ _ h _ => follows_next ⟨h.setPc _, .of_eq h.ccr (hrow ▸ holds_self _)⟩

end

end

end Sys2Proof.Machine
end

section
/-! CERTIFICATES. What every instruction does to the parts of the state it is not about: the frames of 10_state.md. -/

namespace Sys2Proof.Machine

section
variable {s : State}

/-! ### The instructions that share no shape -/

theorem follows_execTst {ea : Ea} : Follows [.read (s.ea ea)] s (Done (.tst ea) s) (execTst ea s) :=
  follows_readByte .refl fun _ _ h _ => follows_next ⟨(h.setCcr _).advance _, .of_eq h.ccr (holds_logic8 _ _)⟩

theorem follows_bitBranch {i : Instr} {n : BitVec 3} {dd rr : Byte} {want : Bool}
    (hrow : flagRow i = ⟨.keep, .keep, .keep, .keep, .keep, .compute⟩) :
    Follows [.read (directAddr dd)] s (Done i s) (bitBranch n dd rr want s) :=
  follows_readByte .refl fun _ _ h _ => follows_next ⟨(h.setCcr _).branch _ _ _, hrow ▸
    .of_eq h.ccr ⟨rfl, rfl, rfl, rfl, rfl, trivial⟩⟩

/-- Both halves of H:X are among the registers of a form that steps. -/
theorem Frame.cbeqStep {form : CbeqForm} {rr : Byte} {w t : State} (h : Frame (.cbeq form rr) s w t) :
    Frame (.cbeq form rr) s w (t.cbeqStep form) := by
  cases form with
  | dir _ | sp1 _ => exact h
  | ix1p _ | ixp => exact h.setHx (.head _) (.tail _ (.head _)) _

theorem cbeqStep_ccr (s : State) (form : CbeqForm) : (s.cbeqStep form).ccr = s.ccr := by
  cases form <;> rfl

theorem Frame.movStep {form : MovForm} {w t : State} (h : Frame (.mov form) s w t) :
    Frame (.mov form) s w (t.movStep form) := by
  cases form with
  | dd _ _ | imd _ _ => exact h
  | dixp _ | ixpd _ => exact h.setHx (.head _) (.tail _ (.head _)) _

theorem movStep_ccr (s : State) (form : MovForm) : (s.movStep form).ccr = s.ccr := by
  cases form <;> rfl

theorem follows_execCbeq {form : CbeqForm} {rr : Byte} :
    Follows [.read (s.cbeqEa form)] s (Done (.cbeq form rr) s) (execCbeq form rr s) := by
  refine follows_readByte .refl fun w t h _ => follows_next ⟨h.cbeqStep.branch _ _ _, ?_⟩
  exact .of_eq h.ccr ((cbeqStep_ccr t form).symm ▸ holds_self t.ccr)

theorem follows_execDbnz {ea : Ea} {rr : Byte} :
    Follows (s.updateAccesses (s.ea ea) countDown) s (Done (.dbnz ea rr) s) (execDbnz ea rr s) :=
  follows_readByte .refl fun _ _ h1 _ => follows_writeByte h1 fun _ _ h2 _ =>
    follows_next ⟨h2.branch _ _ _, .of_eq h2.ccr (holds_self _)⟩

theorem follows_movSource {form : MovForm} {P : State → State → Prop} {k : Byte → State → Out}
    (hk : ∀ v w t, Begun (.mov form) s.ccr s w t → Follows [.write (s.movDest form) v] w P (k v t)) :
    Follows (s.movAccesses form) s P (s.movSource form k) := by
  have hstart : Begun (.mov form) s.ccr s s s := .refl
  unfold State.movAccesses State.movSource
  cases form with
  | imd ii dst => exact hk ii s s hstart
  | dd src dst | dixp src | ixpd dst => exact follows_readByte hstart fun w t h _ => hk _ w t h

theorem follows_execMov {form : MovForm} : Follows (s.movAccesses form) s (Done (.mov form) s) (execMov form s) :=
  follows_movSource fun v _ _ h1 => follows_writeByte h1 fun _ t h2 _ => follows_next
    ⟨(h2.setCcr _).movStep.advance _,
      .of_eq h2.ccr ((movStep_ccr (t.setCcr (t.ccr.logic8 v)) form).symm ▸ holds_logic8 t.ccr v)⟩

theorem follows_execSthx {dd : Byte} :
    Follows [.write (directAddr dd) s.h, .write (directAddr dd + 1) s.x] s (Done (.sthx dd) s) (execSthx dd s) := by
  have hhi : s.h = hiByte s.hx := (hiByte_wordOf s.h s.x).symm
  have hlo : s.x = loByte s.hx := (loByte_wordOf s.h s.x).symm
  rw [hhi, hlo]
  exact follows_writeWord .refl fun _ _ h => follows_next ⟨(h.setCcr _).advance _, .of_eq h.ccr (holds_logic16 _ _)⟩

/-- DIV keeps V, H, I and N, also where the quotient does not fit and A, H and Z are draws (R184). -/
theorem follows_execDiv : Follows [] s (Done .div s) (execDiv s) := by
  refine follows_inherent ?_
  split
  · exact ⟨((Begun.refl.setA (by decide) _).setH (by decide) _).setCcr _, rfl, rfl, rfl, rfl, trivial, trivial⟩
  · exact ⟨(((Begun.refl.setA (by decide) _).setH (by decide) _).setCcr _).drew (by decide) _,
      rfl, rfl, rfl, rfl, trivial, trivial⟩

/-- DAA keeps H and I, inside its table and outside (R182). -/
theorem follows_execDaa : Follows [] s (Done .daa s) (execDaa s) := by
  refine follows_inherent ?_
  split <;>
    exact ⟨((Begun.refl.setA (by decide) _).setCcr _).drew (by decide) _, trivial, rfl, rfl, trivial, trivial, trivial⟩

/-- Every instruction makes its listed accesses and no others, treats the flags as its row of R39 says, and changes no other
part of the state than the named ones (R22 to R24, R35, R56). -/
theorem exec_follows (i : Instr) (s : State) : Follows (s.accesses i) s (Done i s) (exec i s) := by
  unfold State.accesses exec
  cases i with
  | brset n dd rr | brclr n dd rr => exact follows_bitBranch rfl
  | bset n dd | bclr n dd => exact follows_bitModify rfl
  | bra rr | brn rr | bhi rr | bls rr | bcc rr | bcs rr | bne rr | beq rr | bhcc rr | bhcs rr | bpl rr | bmi rr | bmc rr
  | bms rr | bil rr | bih rr | bge rr | blt rr | bgt rr | ble rr | bhs rr | blo rr => exact follows_condBranch rfl
  | neg ea | ror ea | asr ea | lsl ea | rol ea | asl ea =>
    refine follows_rmwMem ?_
    exact fun _ _ => holds_ofByte _ _
  | com ea =>
    refine follows_rmwMem ?_
    exact fun _ _ => holds_ofCom _ _
  | lsr ea =>
    refine follows_rmwMem ?_
    exact fun _ _ => holds_ofByte_lsr8 _ _
  | dec ea | inc ea =>
    refine follows_rmwMem ?_
    exact fun _ _ => holds_ofStep _ _
  | nega | rora | asra | lsla | rola | asla =>
    refine follows_rmwA ?_ (.head _)
    exact fun _ _ => holds_ofByte _ _
  | coma =>
    refine follows_rmwA ?_ (.head _)
    exact fun _ _ => holds_ofCom _ _
  | lsra =>
    refine follows_rmwA ?_ (.head _)
    exact fun _ _ => holds_ofByte_lsr8 _ _
  | deca | inca =>
    refine follows_rmwA ?_ (.head _)
    exact fun _ _ => holds_ofStep _ _
  | negx | rorx | asrx | lslx | rolx | aslx =>
    refine follows_rmwX ?_ (.head _)
    exact fun _ _ => holds_ofByte _ _
  | comx =>
    refine follows_rmwX ?_ (.head _)
    exact fun _ _ => holds_ofCom _ _
  | lsrx =>
    refine follows_rmwX ?_ (.head _)
    exact fun _ _ => holds_ofByte_lsr8 _ _
  | decx | incx =>
    refine follows_rmwX ?_ (.head _)
    exact fun _ _ => holds_ofStep _ _
  | tst ea => exact follows_execTst
  | clr ea =>
    refine follows_storeByte ?_
    exact holds_logic8_zero
  | sta ea | stx ea =>
    refine follows_storeByte ?_
    exact fun _ => holds_logic8 _ _
  | tsta | tstx =>
    refine follows_inherent ?_
    exact ⟨Begun.refl.setCcr _, holds_logic8 _ _⟩
  | clra =>
    refine follows_inherent ?_
    exact ⟨(Begun.refl.setA (.head _) _).setCcr _, holds_logic8_zero _⟩
  | clrx =>
    refine follows_inherent ?_
    exact ⟨(Begun.refl.setX (.head _) _).setCcr _, holds_logic8_zero _⟩
  | clrh =>
    refine follows_inherent ?_
    exact ⟨(Begun.refl.setH (.head _) _).setCcr _, holds_logic8_zero _⟩
  | mul =>
    refine follows_inherent ?_
    exact ⟨((Begun.refl.setX (by decide) _).setA (by decide) _).setCcr _, rfl, rfl, rfl, rfl, rfl, rfl⟩
  | nsa | tpa | txa =>
    refine follows_inherent ?_
    exact ⟨Begun.refl.setA (.head _) _, holds_self _⟩
  | tax =>
    refine follows_inherent ?_
    exact ⟨Begun.refl.setX (.head _) _, holds_self _⟩
  | txs | rsp =>
    refine follows_inherent ?_
    exact ⟨Begun.refl.setSp (.head _) _, holds_self _⟩
  | tsx =>
    refine follows_inherent ?_
    exact ⟨Begun.refl.setHx (by decide) (by decide) _, holds_self _⟩
  | nop =>
    refine follows_inherent ?_
    exact ⟨Begun.refl.toFrame, holds_self _⟩
  | clc | sec =>
    refine follows_inherent ?_
    exact ⟨Begun.refl.setCcr _, rfl, rfl, rfl, rfl, rfl, rfl⟩
  | cli | sei =>
    refine follows_inherent ?_
    exact ⟨(Begun.refl.setCcr _).setMask (by decide) _, rfl, rfl, rfl, rfl, rfl, rfl⟩
  | tap =>
    refine follows_inherent ?_
    exact ⟨(Begun.refl.setCcr _).setMask (by decide) _, holds_load _ _⟩
  | stop =>
    refine follows_inherent ?_
    exact ⟨((Begun.refl.setCcr _).setIrqEnable rfl _).setRun (by decide) _, rfl, rfl, rfl, rfl, rfl, rfl⟩
  | wait =>
    refine follows_inherent ?_
    exact ⟨(Begun.refl.setCcr _).setRun (by decide) _, rfl, rfl, rfl, rfl, rfl, rfl⟩
  | cbeqa ii rr | cbeqx ii rr => exact follows_next ⟨Begun.refl.branch _ _ _, holds_self _⟩
  | dbnza rr => exact follows_next ⟨(Begun.refl.setA (.head _) _).branch _ _ _, holds_self _⟩
  | dbnzx rr => exact follows_next ⟨(Begun.refl.setX (.head _) _).branch _ _ _, holds_self _⟩
  | ais ii => exact follows_next ⟨(Begun.refl.setSp (.head _) _).advance _, holds_self _⟩
  | aix ii => exact follows_next ⟨(Begun.refl.setHx (.head _) (.tail _ (.head _)) _).advance _, holds_self _⟩
  | jmp ea => exact follows_next ⟨Begun.refl.setPc _, holds_self _⟩
  | sub src | sbc src =>
    refine follows_withSrc ?_
    exact fun _ _ _ h => ⟨(h.setA (.head _) _).setCcr _, .of_eq h.ccr (holds_ofByte _ _)⟩
  | adc src | add src =>
    refine follows_withSrc ?_
    exact fun _ _ _ h => ⟨(h.setA (.head _) _).setCcr _, .of_eq h.ccr (holds_ofAdd _ _)⟩
  | cmp src | cpx src =>
    refine follows_withSrc ?_
    exact fun _ _ _ h => ⟨h.setCcr _, .of_eq h.ccr (holds_ofByte _ _)⟩
  | and src | lda src | eor src | ora src =>
    refine follows_withSrc ?_
    exact fun _ _ _ h => ⟨(h.setA (.head _) _).setCcr _, .of_eq h.ccr (holds_logic8 _ _)⟩
  | bit src =>
    refine follows_withSrc ?_
    exact fun _ _ _ h => ⟨h.setCcr _, .of_eq h.ccr (holds_logic8 _ _)⟩
  | ldx src =>
    refine follows_withSrc ?_
    exact fun _ _ _ h => ⟨(h.setX (.head _) _).setCcr _, .of_eq h.ccr (holds_logic8 _ _)⟩
  | cphx src =>
    refine follows_readSrc16 ?_
    exact fun _ _ _ h => follows_next ⟨(h.setCcr _).advance _, .of_eq h.ccr (holds_ofWord _ _)⟩
  | ldhx src =>
    refine follows_readSrc16 ?_
    exact fun _ _ _ h => follows_next
      ⟨((h.setHx (.head _) (.tail _ (.head _)) _).setCcr _).advance _, .of_eq h.ccr (holds_logic16 _ _)⟩
  | psha | pshx | pshh => exact follows_push_only rfl (.head _)
  | bsr rr | jsr ea => exact follows_call rfl (.head _)
  | rti => exact follows_returnFromException s
  | swi => exact follows_takeException s _ _
  | sthx dd => exact follows_execSthx
  | cbeq form rr => exact follows_execCbeq
  | dbnz ea rr => exact follows_execDbnz
  | mov form => exact follows_execMov
  | div => exact follows_execDiv
  | daa => exact follows_execDaa
  | pula =>
    refine follows_pull_only (.tail _ (.head _)) ?_
    exact fun _ _ _ h => ⟨h.setA (.head _) _, .of_eq h.ccr (holds_self _)⟩
  | pulx =>
    refine follows_pull_only (.tail _ (.head _)) ?_
    exact fun _ _ _ h => ⟨h.setX (.head _) _, .of_eq h.ccr (holds_self _)⟩
  | pulh =>
    refine follows_pull_only (.tail _ (.head _)) ?_
    exact fun _ _ _ h => ⟨h.setH (.head _) _, .of_eq h.ccr (holds_self _)⟩
  | rts =>
    exact follows_pullWord .refl (.head _) (sp_eq_add_zero s) fun _ _ _ h =>
      follows_next ⟨h.setPc _, .of_eq h.ccr (holds_self _)⟩

/-! ### The frames -/

/-- Settles O14: what the frame of an instruction says of the four registers. -/
theorem registerFrame : Obligations.RegisterFrame := by
  unfold Obligations.RegisterFrame
  intro i s t h
  obtain ⟨u, -, hdone⟩ := follows_next_iff.mp (h ▸ exec_follows i s)
  exact ⟨hdone.a, hdone.h, hdone.x, hdone.sp⟩

/-- Settles O15: a finished instruction meets its row of the table. -/
theorem flagTable : Obligations.FlagTable := by
  unfold Obligations.FlagTable
  intro i s t h
  obtain ⟨u, -, hdone⟩ := follows_next_iff.mp (h ▸ exec_follows i s)
  exact hdone.flags

theorem afterRead_of_not_device {addr : Word} (h : s.kind addr ≠ .device) : s.afterRead addr = s := if_neg h

theorem afterWrite_devOut_of_not_device {addr : Word} (h : s.kind addr ≠ .device) (v : Byte) :
    (s.afterWrite addr v).devOut = s.devOut := by
  unfold State.afterWrite
  split
  · rfl
  · rfl
  · exact absurd ‹_› h
  · rfl

/-- Accesses that touch no device hand it nothing and draw nothing (R60). -/
theorem replay_without_device {accs : List Access} : ∀ {s u : State}, (∀ acc ∈ accs, s.kind acc.addr ≠ .device) →
    s.replay accs .next = .next u → u.devOut = s.devOut ∧ u.draws = s.draws := by
  induction accs with
  | nil =>
    intro s u _ h
    cases h
    exact ⟨rfl, rfl⟩
  | cons acc rest ih =>
    intro s u hkind h
    obtain ⟨hacc, hrest⟩ := List.forall_mem_cons.mp hkind
    cases acc with
    | read addr =>
      rw [replay_read, readByte_eq_next, afterRead_of_not_device (show s.kind addr ≠ .device from hacc)] at h
      exact ih hrest h.2
    | write addr v =>
      rw [replay_write, writeByte_eq_next] at h
      obtain ⟨hdev, hdraws⟩ := ih (fun acc hmem => (State.afterWrite_kind s addr acc.addr v).symm ▸ hrest acc hmem) h.2
      exact ⟨hdev.trans (afterWrite_devOut_of_not_device hacc v), hdraws.trans (State.afterWrite_draws s addr v)⟩

/-- Settles O16: the hidden state is in the frame, and an instruction stops with a fault exactly as its accesses do. -/
theorem hiddenStateFrame : Obligations.HiddenStateFrame := by
  unfold Obligations.HiddenStateFrame
  refine ⟨fun i s t h => ?_, fun i s f h => follows_fault_iff.mp (h ▸ exec_follows i s)⟩
  obtain ⟨u, hu, hdone⟩ := follows_next_iff.mp (h ▸ exec_follows i s)
  refine ⟨hdone.env, hdone.future, hdone.cfg, hdone.run, hdone.irqEnable, hdone.mask,
    ⟨u, hu, hdone.mem, hdone.devOut, hdone.draws⟩, fun hkind => ?_⟩
  obtain ⟨hdev, hdraws⟩ := replay_without_device hkind hu
  exact ⟨hdone.devOut.trans hdev, fun hi => (hdone.draws hi).trans hdraws⟩

end

end Sys2Proof.Machine
end

section
/-! CERTIFICATES. The invariant: canonical memory, and a run state and a mask history that agree with I (R265, R275, R277, R303). -/

namespace Sys2Proof.Machine

section
variable {s t : State}

/-! ### States in which nothing is left over -/

/-- A state between instructions: memory is in canonical form, and no low-power state and no mask history is left. -/
structure State.Settled (s : State) : Prop where
  mem : s.mem.wf = true
  run : s.run = .running
  mask : s.mask = .none

theorem State.Settled.inv (h : s.Settled) : s.Inv := by
  refine ⟨h.mem, ?_, ?_⟩
  · rw [h.run]; trivial
  · rw [h.mask]; trivial

/-- A reset leaves nothing over, whatever it finds (R291, R292). -/
theorem settled_of_takeReset (hmem : s.mem.wf = true) (h : s.takeReset = .next t) : t.Settled := by
  obtain ⟨r, rfl, rfl⟩ := takeReset_eq_next h
  have hregs : s.resetRegisters.Settled := ⟨hmem, rfl, rfl⟩
  exact ⟨by simpa using hregs.mem, by simpa using hregs.run, by simpa using hregs.mask⟩

/-- An exception entry ends a low-power state (R266, R276). -/
theorem settled_of_takeException {ret vector : Word} (hmem : s.mem.wf = true) (hmask : s.mask = .none)
    (h : s.takeException ret vector = .next t) : t.Settled := by
  obtain ⟨u, hu, hdone⟩ := follows_next_iff.mp (h ▸ follows_takeException s ret vector)
  obtain ⟨s1, s2, s3, s4, s5, target, -, -, -, -, -, -, rfl⟩ := takeException_eq_next h
  exact ⟨hdone.mem ▸ replay_wf hmem hu, rfl, (hdone.mask (by decide)).trans hmask⟩

/-! ### Instructions -/

theorem exec_wf {i : Instr} (hmem : s.mem.wf = true) (h : exec i s = .next t) : t.mem.wf = true := by
  obtain ⟨u, hu, hdone⟩ := follows_next_iff.mp (h ▸ exec_follows i s)
  exact hdone.mem ▸ replay_wf hmem hu

/-- The low-power states begin with I clear and no mask history, the stopped state with the /IRQ pin enabled (R275, R277). -/
theorem exec_run_consistent {i : Instr} (hs : s.Settled) (h : exec i s = .next t) : t.run.Consistent t := by
  by_cases hi : i ∈ [Instr.stop, .wait, .swi]
  · simp only [List.mem_cons, List.not_mem_nil, or_false] at hi
    rcases hi with rfl | rfl | rfl
    · cases h
      exact ⟨rfl, hs.mask, rfl⟩
    · cases h
      exact ⟨rfl, hs.mask⟩
    · exact (settled_of_takeException hs.mem hs.mask h).inv.2.1
  · obtain ⟨u, -, hdone⟩ := follows_next_iff.mp (h ▸ exec_follows i s)
    rw [hdone.run hi, hs.run]
    trivial

theorem maskAfterTap_consistent (oldI newI : Bool) : (maskAfterTap oldI newI).Consistent newI := by
  cases oldI <;> cases newI <;> trivial

theorem maskAfterRti_consistent (oldI newI : Bool) : (maskAfterRti oldI newI).Consistent newI := by
  cases oldI <;> cases newI <;> trivial

/-- Each instruction that writes the mask history writes the one that fits the I it leaves (R265, R296, R297). -/
theorem exec_mask_consistent {i : Instr} (hs : s.Settled) (h : exec i s = .next t) : t.mask.Consistent t.ccr.i := by
  by_cases hi : i ∈ [Instr.cli, .sei, .tap, .rti]
  · simp only [List.mem_cons, List.not_mem_nil, or_false] at hi
    rcases hi with rfl | rfl | rfl | rfl
    · cases h
      exact rfl
    · cases h
      show MaskHistory.Consistent true (if s.ccr.i then .none else .justSet)
      split
      · trivial
      · exact rfl
    · cases h
      exact maskAfterTap_consistent _ _
    · obtain ⟨c, a, x, s1, s2, s3, s4, s5, -, -, -, -, -, -, -, -, rfl⟩ := returnFromException_eq_next h
      exact maskAfterRti_consistent _ _
  · obtain ⟨u, -, hdone⟩ := follows_next_iff.mp (h ▸ exec_follows i s)
    rw [hdone.mask hi, hs.mask]
    trivial

theorem exec_inv {i : Instr} (hs : s.Settled) (h : exec i s = .next t) : t.Inv :=
  ⟨exec_wf hs.mem h, exec_run_consistent hs h, exec_mask_consistent hs h⟩

/-! ### What a boundary can begin -/

/-- A reset that cuts something off settles the state, so what is left to show is what the whole of it does (R290). -/
theorem orCutShort_inv {accs : List Access} {whole : Out} (hmem : s.mem.wf = true) (hwhole : whole = .next t → t.Inv)
    (h : s.orCutShort accs whole = .next t) : t.Inv := by
  cases hcut : s.env.cut with
  | none => exact hwhole (by rwa [orCutShort_none hcut] at h)
  | some n =>
    rw [orCutShort_some hcut, replay_eq_next] at h
    obtain ⟨u, hu, hreset⟩ := h
    exact (settled_of_takeReset (replay_wf hmem hu) hreset).inv

theorem enterInterrupt_inv {vector : Word} (hmem : s.mem.wf = true) (hmask : s.mask = .none)
    (h : s.enterInterrupt vector = .next t) : t.Inv :=
  orCutShort_inv hmem (fun h => (settled_of_takeException hmem hmask h).inv) h

theorem illegalOpcode_inv {bytes : List Byte} (hmem : s.mem.wf = true) (h : s.illegalOpcode bytes = .next t) : t.Inv := by
  unfold State.illegalOpcode at h
  split at h
  · cases h
  · exact (settled_of_takeReset hmem h).inv

theorem decodeError_inv {e : DecodeError} (hmem : s.mem.wf = true) (h : s.decodeError e = .next t) : t.Inv := by
  cases e with
  | truncated => cases h
  | unassigned b0 => exact illegalOpcode_inv hmem h
  | unassignedPage2 b1 => exact illegalOpcode_inv hmem h

theorem runInstr_inv (hs : s.Settled) (h : s.runInstr = .next t) : t.Inv := by
  cases hdecode : decode s.fetchBytes with
  | ok i => exact orCutShort_inv hs.mem (exec_inv hs) (runInstr_of_decode_ok hdecode ▸ h)
  | error e => exact orCutShort_inv hs.mem (decodeError_inv hs.mem) (runInstr_of_decode_error hdecode ▸ h)

/-! ### The run states -/

theorem runningStep_inv (hmem : s.mem.wf = true) (hrun : s.run = .running) (h : s.runningStep = .next t) : t.Inv := by
  unfold State.runningStep at h
  split at h
  · exact (settled_of_takeReset hmem h).inv
  · split at h
    · exact enterInterrupt_inv (s := s.setMask .none) hmem rfl h
    · exact runInstr_inv (s := s.setMask .none) ⟨hmem, hrun, rfl⟩ h

theorem waitingStep_inv (hs : s.Inv) (hmask : s.mask = .none) (h : s.waitingStep = .next t) : t.Inv := by
  unfold State.waitingStep at h
  split at h
  · exact (settled_of_takeReset hs.1 h).inv
  · split at h
    · exact enterInterrupt_inv hs.1 hmask h
    · cases h
      exact hs

/-- The whole delay may still lie ahead in a state that is as the stopped state leaves it (R275, R303). -/
theorem setRun_recovering_inv {n : Nat} {byReset : Bool} (hmem : s.mem.wf = true) (hi : s.ccr.i = false)
    (hmask : s.mask = .none) (hirq : s.irqEnable = true) (hn : n ≤ 4095) : (s.setRun (.recovering n byReset)).Inv :=
  ⟨hmem, ⟨hi, hmask, hirq, hn⟩, by rw [State.setRun_mask, hmask]; trivial⟩

theorem stoppedStep_inv (hs : s.Inv) (hi : s.ccr.i = false) (hmask : s.mask = .none) (hirq : s.irqEnable = true)
    (h : s.stoppedStep = .next t) : t.Inv := by
  unfold State.stoppedStep at h
  split at h
  · cases h
    exact setRun_recovering_inv hs.1 hi hmask hirq (Nat.le_refl _)
  · split at h
    · cases h
      exact hs
    · cases h
      exact setRun_recovering_inv hs.1 hi hmask hirq (Nat.le_refl _)

theorem recoveringStep_inv {cyclesLeft : Nat} {byReset : Bool} (hmem : s.mem.wf = true) (hi : s.ccr.i = false)
    (hmask : s.mask = .none) (hirq : s.irqEnable = true) (hleft : cyclesLeft ≤ 4095)
    (h : s.recoveringStep cyclesLeft byReset = .next t) : t.Inv := by
  unfold State.recoveringStep at h
  split at h
  · cases h
    exact setRun_recovering_inv hmem hi hmask hirq (Nat.le_refl _)
  · cases cyclesLeft with
    | succ n =>
      cases h
      exact setRun_recovering_inv hmem hi hmask hirq (Nat.le_of_succ_le hleft)
    | zero =>
      cases byReset with
      | true => exact (settled_of_takeReset hmem h).inv
      | false => exact enterInterrupt_inv hmem hmask h

theorem boundary_inv (hs : s.Inv) (h : s.boundary = .next t) : t.Inv := by
  obtain ⟨hmem, hconsistent, -⟩ := id hs
  unfold State.boundary at h
  split at h
  next hrun => exact runningStep_inv hmem hrun h
  next hrun =>
    rw [hrun] at hconsistent
    obtain ⟨-, hmask⟩ := hconsistent
    exact waitingStep_inv hs hmask h
  next hrun =>
    rw [hrun] at hconsistent
    obtain ⟨hi, hmask, hirq⟩ := hconsistent
    exact stoppedStep_inv hs hi hmask hirq h
  next cyclesLeft byReset hrun =>
    rw [hrun] at hconsistent
    obtain ⟨hi, hmask, hirq, hleft⟩ := hconsistent
    exact recoveringStep_inv hmem hi hmask hirq hleft h

/-- The invariant is not about the inputs. -/
theorem tick_inv (hs : s.Inv) : s.tick.Inv := by
  unfold State.tick
  cases s.future with
  | nil => exact hs
  | cons e rest => exact hs

end

/-- Settles O10: what a boundary begins keeps the invariant in each of the four run states, and the inputs play no part in it. -/
theorem stepKeepsInv : Obligations.StepKeepsInv := by
  unfold Obligations.StepKeepsInv
  intro s t hs h
  obtain ⟨u, hu, rfl⟩ := mapNext_eq_next h
  exact tick_inv (boundary_inv hs hu)

end Sys2Proof.Machine
end

section
/-! CERTIFICATES. Memory and its addresses: that instructions complete, the memory frame, the accesses by class, a load after a store,
and the effective addresses (20_memory.md). -/

namespace Sys2Proof.Machine

/-- Settles O11: a map without holes lets every access of every instruction through. -/
theorem everyInstructionCompletes : Obligations.EveryInstructionCompletes := by
  unfold Obligations.EveryInstructionCompletes
  intro s hpresent i
  obtain ⟨t, ht, -⟩ := exec_completesIn (holeFree_cfg_iff.mpr hpresent) rfl i
  exact ⟨t, ht⟩

/-! ### The memory frame -/

/-- Accesses leave every byte alone that none of them writes. -/
theorem replay_peek_of_not_target {addr : Word} {accs : List Access} : ∀ {s u : State},
    addr ∉ accs.filterMap Access.target → s.replay accs .next = .next u → u.peek addr = s.peek addr := by
  induction accs with
  | nil =>
    intro s u _ h
    cases h
    rfl
  | cons acc rest ih =>
    intro s u hnot h
    cases acc with
    | read a =>
      rw [replay_read, readByte_eq_next] at h
      rw [ih hnot h.2, State.afterRead_peek]
    | write a v =>
      obtain ⟨hne, hrest⟩ : addr ≠ a ∧ addr ∉ rest.filterMap Access.target := by
        simpa [Access.target, not_or] using hnot
      rw [replay_write, writeByte_eq_next] at h
      rw [ih hrest h.2, State.afterWrite_peek_other v hne]

/-- Settles O13: memory after an instruction is memory after its accesses, and its stores are the targets of those. -/
theorem memoryFrame : Obligations.MemoryFrame := by
  unfold Obligations.MemoryFrame
  intro i s t h addr hnot
  obtain ⟨u, hu, hdone⟩ := follows_next_iff.mp (h ▸ exec_follows i s)
  rw [stores_eq_targets] at hnot
  calc t.peek addr = u.peek addr := by rw [State.peek, State.peek, hdone.mem]
    _ = s.peek addr := replay_peek_of_not_target hnot hu

/-! ### Accesses by class -/

section
variable {s : State} {addr : Word}

theorem present_of_ne_unimplemented (h : s.kind addr ≠ .unimplemented) : s.present addr = true :=
  bne_iff_ne.mpr h

theorem readByte_of_device (h : s.kind addr = .device) (k : Byte → State → Out) :
    s.readByte addr k = k (Config.freeByte s.draws) (s.drew 1) := by
  rw [readByte_of_present (present_of_ne_unimplemented (by rw [h]; decide)), State.byteAt, State.afterRead, if_pos h, if_pos h]

theorem readByte_of_unimplemented (h : s.kind addr = .unimplemented) (k : Byte → State → Out) :
    s.readByte addr k = .fault (.unimplementedRead addr) :=
  if_neg (by simp [State.present, h])

theorem writeByte_of_unimplemented (h : s.kind addr = .unimplemented) (v : Byte) (k : State → Out) :
    s.writeByte addr v k = .fault (.unimplementedWrite addr) :=
  if_neg (by simp [State.present, h])

theorem writeByte_of_ne_unimplemented (h : s.kind addr ≠ .unimplemented) (v : Byte) (k : State → Out) :
    s.writeByte addr v k = k (s.afterWrite addr v) :=
  writeByte_of_present (present_of_ne_unimplemented h) v k

theorem afterWrite_of_ram (h : s.kind addr = .ram) (v : Byte) : s.afterWrite addr v = s.setMem (s.mem.write addr.toNat v) := by
  rw [State.afterWrite, h]

theorem afterWrite_of_rom (h : s.kind addr = .rom) (v : Byte) : s.afterWrite addr v = s := by
  rw [State.afterWrite, h]

theorem afterWrite_of_device (h : s.kind addr = .device) (v : Byte) : s.afterWrite addr v = s.pushDev (addr.toNat, v) := by
  rw [State.afterWrite, h]

end

/-- Settles O17: the rule of each class, for reads and for writes. -/
theorem accessByClass : Obligations.AccessByClass := by
  unfold Obligations.AccessByClass
  intro s addr v read written
  refine ⟨fun h => readByte_of_memoryAt h read, fun h => readByte_of_device h read, fun h => readByte_of_unimplemented h read,
    fun h => ?ram, fun h => ?rom, fun h => ?device, fun h => writeByte_of_unimplemented h v written⟩
  case ram => rw [writeByte_of_ne_unimplemented (by rw [h]; decide), afterWrite_of_ram h]; rfl
  case rom => rw [writeByte_of_ne_unimplemented (by rw [h]; decide), afterWrite_of_rom h]
  case device => rw [writeByte_of_ne_unimplemented (by rw [h]; decide), afterWrite_of_device h]; rfl

/-! ### A load after a store -/

/-- A write to RAM changes the byte at its address and no other (R61). -/
theorem afterWrite_peek_of_ram {s : State} {a : Word} (v : Byte) (hmem : s.mem.wf = true) (hkind : s.kind a = .ram) (b : Word) :
    (s.afterWrite a v).peek b = if b = a then v else s.peek b := by
  split
  next h => rw [h, State.afterWrite_peek_same a v hmem hkind]
  next h => exact State.afterWrite_peek_other v h

/-- LDA from memory loads the byte that memory holds there and leaves memory alone. -/
theorem exec_lda_of_memoryAt {ea : Ea} {s : State} (h : s.memoryAt (s.ea ea)) :
    exec (.lda (.mem ea)) s =
      .next (((s.setA (s.peek (s.ea ea))).setCcr (s.ccr.logic8 (s.peek (s.ea ea)))).advance ea.length) := by
  show execLda (.mem ea) s = _
  rw [execLda, withSrc_mem (present_of_memoryAt h), byteAt_of_memoryAt h, afterRead_of_memoryAt h]

/-- Settles O18: the store is one write to RAM, after which a read of that address gives the byte written. -/
theorem loadAfterStore : Obligations.LoadAfterStore := by
  unfold Obligations.LoadAfterStore
  intro ea s t hmem hkind h
  obtain ⟨-, rfl⟩ := storeByte_eq_next.mp h
  set t := ((s.afterWrite (s.ea ea) s.a).setCcr (s.ccr.logic8 s.a)).advance ea.length with ht
  have hpeek : ∀ addr, t.peek addr = if addr = s.ea ea then s.a else s.peek addr :=
    afterWrite_peek_of_ram s.a hmem hkind
  have hram : t.kind (s.ea ea) = .ram := by rwa [ht, State.advance_kind, State.setCcr_kind, State.afterWrite_kind]
  refine ⟨hpeek, _, exec_lda_of_memoryAt (ea := .ext (s.ea ea)) (.inl hram), ?_, rfl⟩
  exact (hpeek (s.ea ea)).trans (if_pos rfl)

/-! ### Effective addresses -/

theorem toNat_zext16 (v : Byte) : (zext16 v).toNat = v.toNat :=
  Nat.mod_eq_of_lt (Nat.lt_trans v.isLt (by decide))

theorem State.toNat_hx (s : State) : s.hx.toNat = s.h.toNat * 256 + s.x.toNat := by
  rw [State.hx, BitVec.toNat_append, ← Nat.shiftLeft_add_eq_or_of_lt s.x.isLt, Nat.shiftLeft_eq]

/-- Settles O19: an address is a sum of 16-bit numbers, which is taken modulo 65536. -/
theorem effectiveAddresses : Obligations.EffectiveAddresses := by
  unfold Obligations.EffectiveAddresses
  intro s dd ff v
  refine ⟨rfl, toNat_zext16 dd, rfl, s.toNat_hx, ?_, ?_, ?_, ?_⟩ <;>
    simp only [State.ea, BitVec.toNat_add, toNat_zext16, State.toNat_hx]

end Sys2Proof.Machine
end

section
/-! CERTIFICATES. LDHX and STHX (R185, R189), jumps and calls (R153, R240, R241). -/

namespace Sys2Proof.Machine

/-! ### LDHX and STHX -/

/-- The flags of a 16-bit value are those of its two bytes: N is the sign of the high one, Z that both are zero (R16). -/
theorem logic16_wordOf (f : Flags) (hi lo : Byte) : f.logic16 (wordOf hi lo) = valueFlags16 hi lo f := by
  have hmsb : (wordOf hi lo).msb = hi.msb := by rw [wordOf, BitVec.msb_append]; rfl
  have hzero : (wordOf hi lo == 0) = (hi == 0 && lo == 0) := by
    rw [Bool.eq_iff_iff, Bool.and_eq_true, beq_iff_eq, beq_iff_eq, beq_iff_eq]
    constructor
    · intro h
      exact ⟨by rw [← hiByte_wordOf hi lo, h]; rfl, by rw [← loByte_wordOf hi lo, h]; rfl⟩
    · rintro ⟨rfl, rfl⟩
      rfl
  rw [Flags.logic16, valueFlags16, hmsb, hzero]

/-- What a load of H:X does, where the operand can be read. -/
theorem execLdhx_of_ready {src : Src16} {s : State} (h : s.operand16Ready src = true) :
    execLdhx src s = .next { s.afterOperand16 src with
      h := hiByte (s.operand16 src), x := loByte (s.operand16 src), ccr := s.ccr.logic16 (s.operand16 src)
      pc := s.pc + BitVec.ofNat 16 src.length } := by
  simp [execLdhx, readSrc16_of_ready h, State.setHx, State.setCcr, State.advance, State.setPc, State.nextPc]

/-- Settles O33: H and X are the two bytes of the operand. -/
theorem ldhxMeans : Obligations.LdhxMeans := by
  unfold Obligations.LdhxMeans
  refine ⟨fun hi lo dd => ⟨⟨by simp [encode, word16Words], rfl, rfl⟩, rfl, rfl, rfl⟩, fun src s h => ?_⟩
  have hword := wordOf_hiByte_loByte (s.operand16 src)
  refine ⟨hiByte (s.operand16 src), loByte (s.operand16 src), hword.symm, ?_⟩
  rw [← logic16_wordOf, hword]
  exact execLdhx_of_ready h

theorem writeWord_of_present {s : State} {a : Word} (hhi : s.present a = true) (hlo : s.present (a + 1) = true) (v : Word)
    (k : State → Out) :
    s.writeWord a v k = k ((s.afterWrite a (hiByte v)).afterWrite (a + 1) (loByte v)) := by
  rw [State.writeWord, writeByte_of_present hhi, writeByte_of_present (by rwa [State.afterWrite_present])]

/-- What a store of H:X does, where both addresses are implemented. -/
theorem execSthx_of_present {dd : Byte} {s : State} (hhi : s.present (directAddr dd) = true)
    (hlo : s.present (directAddr dd + 1) = true) :
    execSthx dd s = .next { (s.afterWrite (directAddr dd) s.h).afterWrite (directAddr dd + 1) s.x with
      ccr := valueFlags16 s.h s.x s.ccr, pc := s.pc + 2 } := by
  have hx : s.hx = wordOf s.h s.x := rfl
  simp [execSthx, writeWord_of_present hhi hlo, hx, logic16_wordOf, State.setCcr, State.advance, State.setPc, State.nextPc]

/-- Settles O34: H goes to the first address, X to the one after it, and each reads back where it is RAM. -/
theorem sthxMeans : Obligations.SthxMeans := by
  unfold Obligations.SthxMeans
  refine ⟨fun dd => ⟨rfl, rfl, rfl⟩, fun s dd hhi hlo => ⟨_, execSthx_of_present hhi hlo, rfl, ?other, ?high, ?low⟩⟩
  case other =>
    intro addr hne hne'
    exact (State.afterWrite_peek_other _ hne').trans (State.afterWrite_peek_other _ hne)
  case high =>
    intro hmem hkind
    exact (State.afterWrite_peek_other s.x (by simp)).trans (State.afterWrite_peek_same _ s.h hmem hkind)
  case low =>
    intro hmem hkind
    exact State.afterWrite_peek_same _ s.x (State.afterWrite_wf _ _ hmem) (by rwa [State.afterWrite_kind])

/-! ### Jumps and calls -/

/-- An instruction whose words and length are those of its address in row `row` has the five forms of R240 and R241. -/
theorem jumpForms_of_jumpWords {i : Ea → Instr} {row : Byte} {dir ext ix2 ix1 ix : Nat} (hrow : 0xF0 &&& row = 0)
    (h : ∀ ea, encode (i ea) = jumpWords row ea ∧ (i ea).length = ea.length)
    (hcycles : ∀ dd ff v w, (i (.dir dd)).cycles = dir ∧ (i (.ext v)).cycles = ext ∧ (i (.ix2 w)).cycles = ix2 ∧
      (i (.ix1 ff)).cycles = ix1 ∧ (i .ix).cycles = ix) : JumpForms i row dir ext ix2 ix1 ix := by
  have hcol : ∀ col : Byte, col &&& 0xF0 = col → col + row = col ||| row := fun _ h => column_add_row h hrow
  intro dd ff hh ll ee
  simpa [HasForm, h, jumpWords, memWords, Ea.length, hcol] using hcycles dd ff (hh ++ ll) (ee ++ ff)

/-- A write and a change of SP do not meet. -/
theorem setSp_afterWrite (s : State) (sp a : Word) (v : Byte) : (s.setSp sp).afterWrite a v = (s.afterWrite a v).setSp sp := by
  unfold State.afterWrite
  rw [State.setSp_kind]
  split <;> rfl

theorem push_of_present {s : State} (h : s.present s.sp = true) (v : Byte) (k : State → Out) :
    s.push v k = k ((s.afterWrite s.sp v).setSp (s.sp - 1)) := by
  rw [State.push, writeByte_of_present h, State.afterWrite_sp]

/-- A return address on the stack, its high byte below its low byte (R59). -/
theorem pushWord_of_present {s : State} (hlo : s.present s.sp = true) (hhi : s.present (s.sp - 1) = true) (v : Word)
    (k : State → Out) :
    s.pushWord v k = k (((s.afterWrite s.sp (loByte v)).afterWrite (s.sp - 1) (hiByte v)).setSp (s.sp - 2)) := by
  have hsp : s.sp - 1 - 1 = s.sp - 2 := sub_sub s.sp 1 1
  rw [State.pushWord, push_of_present hlo, push_of_present (by simpa using hhi), State.setSp_sp, setSp_afterWrite, hsp]
  rfl

/-- Settles O24: a jump sets PC alone; a call pushes the address after it and then goes to a target computed before. -/
theorem jumpsAndCalls : Obligations.JumpsAndCalls := by
  unfold Obligations.JumpsAndCalls
  refine ⟨⟨?_, ?_, fun rr => ⟨rfl, rfl, rfl⟩⟩, fun ea s => rfl, fun s hlo hhi => ⟨fun ea => ?_, fun rr => ?_⟩⟩
  · exact jumpForms_of_jumpWords rfl (fun _ => ⟨rfl, rfl⟩) fun _ _ _ _ => ⟨rfl, rfl, rfl, rfl, rfl⟩
  · exact jumpForms_of_jumpWords rfl (fun _ => ⟨rfl, rfl⟩) fun _ _ _ _ => ⟨rfl, rfl, rfl, rfl, rfl⟩
  · exact pushWord_of_present hlo hhi _ _
  · exact pushWord_of_present hlo hhi _ _

end Sys2Proof.Machine
end

section
/-! SUPPORT. Decoding the words of an instruction gives the instruction back, whatever bytes follow (30_encoding.md R80 to R82, R103). -/

namespace Sys2Proof

open Machine (wordOf_hiByte_loByte hiByte_wordOf loByte_wordOf)

section
variable (rest : List Byte)

/-- A two-byte operand field is some high byte before some low byte (R53). -/
theorem exists_eq_wordOf (v : Word) : ∃ hi lo, v = wordOf hi lo :=
  ⟨hiByte v, loByte v, (wordOf_hiByte_loByte v).symm⟩

/-- The opcodes of the bit instructions are columns 0 and 1 of the map (R106). -/
theorem decode_bitOpcode (t : BitVec 1) (n : BitVec 3) (c : BitVec 1) :
    decode (bitOpcode t n c :: rest) = decodeBit (bitOpcode t n c) rest := by
  have hpage : ∀ t n c, bitOpcode t n c ≠ prebyte := by decide
  have hcolumn : ∀ t n c, ((bitOpcode t n c).extractLsb' 4 4).toNat = t.toNat := by decide
  have ht : ∀ t : BitVec 1, t = 0 ∨ t = 1 := by decide
  rw [decode, if_neg (hpage t n c), decodePage1, hcolumn]
  rcases ht t with rfl | rfl <;> rfl

/-- The three fields of such an opcode (R106). -/
theorem decodeBit_bitOpcode (t : BitVec 1) (n : BitVec 3) (c : BitVec 1) :
    decodeBit (bitOpcode t n c) rest =
      if t = 1 then op1 (if c = 1 then .bclr n else .bset n) rest else op2 (if c = 1 then .brclr n else .brset n) rest := by
  have hn : ∀ t n c, (bitOpcode t n c).extractLsb' 1 3 = n := by decide
  have ht : ∀ t n c, (bitOpcode t n c).getLsbD 4 = decide (t = 1) := by decide
  have hc : ∀ t n c, (bitOpcode t n c).getLsbD 0 = decide (c = 1) := by decide
  simp only [decodeBit, hn, ht, hc, decide_eq_true_eq]

/-- The words of a well-formed instruction decode to it; those of a second name to the core instruction. -/
theorem decode_encode_append {i : Instr} (h : i.wellFormed = true) : decode (encode i ++ rest) = .ok i.canonical := by
  cases i with
  | brset n dd rr | brclr n dd rr | bset n dd | bclr n dd =>
    exact (decode_bitOpcode _ _ _ _).trans (decodeBit_bitOpcode _ _ _ _)
  | neg ea | com ea | lsr ea | ror ea | asr ea | lsl ea | rol ea | dec ea | inc ea | tst ea | clr ea | asl ea | dbnz ea rr =>
    cases ea with
    | dir b | ix1 b | ix | sp1 b => rfl
    | ext v | ix2 v | sp2 v => cases h
  | sub src | cmp src | sbc src | cpx src | and src | bit src | lda src | eor src | adc src | ora src | add src | ldx src =>
    cases src with
    | imm ii => rfl
    | mem ea =>
      cases ea with
      | dir b | ix1 b | ix | sp1 b => rfl
      | ext v | ix2 v | sp2 v =>
        obtain ⟨hi, lo, rfl⟩ := exists_eq_wordOf v
        simp only [encode, srcWords, memWords, hiByte_wordOf, loByte_wordOf]
        rfl
  | sta ea | stx ea =>
    cases ea with
    | dir b | ix1 b | ix | sp1 b => rfl
    | ext v | ix2 v | sp2 v =>
      obtain ⟨hi, lo, rfl⟩ := exists_eq_wordOf v
      simp only [encode, memWords, hiByte_wordOf, loByte_wordOf]
      rfl
  | jmp ea | jsr ea =>
    cases ea with
    | dir b | ix1 b | ix => rfl
    | ext v | ix2 v =>
      obtain ⟨hi, lo, rfl⟩ := exists_eq_wordOf v
      simp only [encode, jumpWords, memWords, hiByte_wordOf, loByte_wordOf]
      rfl
    | sp1 b | sp2 v => cases h
  | ldhx src | cphx src =>
    cases src with
    | imm v =>
      obtain ⟨hi, lo, rfl⟩ := exists_eq_wordOf v
      simp only [encode, word16Words, hiByte_wordOf, loByte_wordOf]
      rfl
    | dir dd => rfl
  | cbeq form rr => cases form <;> rfl
  | mov form => cases form <;> rfl
  | _ => rfl

end

end Sys2Proof
end

section
/-! CERTIFICATES. Fetching, and what a step makes of the bytes at PC, whether they spell an instruction or not (20_memory.md R53, R57,
R60; 30_encoding.md R81, R101, R105). -/

namespace Sys2Proof.Machine

/-! ### No instruction is longer than four bytes -/

theorem length_rmwWords_le (row : Byte) (ea : Ea) : (rmwWords row ea).length ≤ 4 := by
  cases ea <;> simp [rmwWords]

theorem length_memWords_le (row : Byte) (ea : Ea) : (memWords row ea).length ≤ 4 := by
  cases ea <;> simp [memWords]

theorem length_srcWords_le (row : Byte) (src : Src) : (srcWords row src).length ≤ 4 := by
  cases src with
  | imm ii => simp [srcWords]
  | mem ea => exact length_memWords_le row ea

theorem length_jumpWords_le (row : Byte) (ea : Ea) : (jumpWords row ea).length ≤ 4 := by
  cases ea <;> simp [jumpWords, memWords]

theorem length_dbnzWords_le (rr : Byte) (ea : Ea) : (dbnzWords rr ea).length ≤ 4 := by
  cases ea <;> simp [dbnzWords]

theorem length_word16Words_le (opImm opDir : Byte) (src : Src16) : (word16Words opImm opDir src).length ≤ 4 := by
  cases src <;> simp [word16Words]

/-- The words of an instruction are no more than the machine fetches (R80). -/
theorem length_encode_le (i : Instr) : (encode i).length ≤ 4 := by
  cases i with
  | neg ea | com ea | lsr ea | ror ea | asr ea | lsl ea | rol ea | dec ea | inc ea | tst ea | clr ea | asl ea =>
    exact length_rmwWords_le _ ea
  | dbnz ea rr => exact length_dbnzWords_le rr ea
  | sub src | cmp src | sbc src | cpx src | and src | bit src | lda src | eor src | adc src | ora src | add src | ldx src =>
    exact length_srcWords_le _ src
  | sta ea | stx ea => exact length_memWords_le _ ea
  | jmp ea | jsr ea => exact length_jumpWords_le _ ea
  | ldhx src | cphx src => exact length_word16Words_le _ _ src
  | cbeq form rr => cases form <;> simp [encode, cbeqWords]
  | mov form => cases form <;> simp [encode, movWords]
  | _ => simp [encode]

/-! ### Fetching -/

section
variable {s : State}

theorem fetchable_iff_memoryAt {addr : Word} : s.fetchable addr = true ↔ s.memoryAt addr := by
  unfold State.fetchable State.memoryAt
  cases s.kind addr <;> simp

/-- The address after the one `k` further on, counted modulo 65536 (R57). -/
theorem add_one_add_ofNat (addr : Word) (k : Nat) : addr + 1 + BitVec.ofNat 16 k = addr + BitVec.ofNat 16 (k + 1) := by
  rw [BitVec.ofNat_add, BitVec.add_assoc, BitVec.add_comm 1]
  rfl

/-- Words that lie in memory from an address on are what a fetch from there begins with (R53, R105). -/
theorem exists_fetchFrom_eq_append {words : List Byte} : ∀ {n : Nat} {addr : Word}, words.length ≤ n →
    (∀ k, k < words.length →
      s.memoryAt (addr + BitVec.ofNat 16 k) ∧ words[k]? = some (s.peek (addr + BitVec.ofNat 16 k))) →
    ∃ rest, s.fetchFrom n addr = words ++ rest := by
  induction words with
  | nil => exact fun _ _ => ⟨_, rfl⟩
  | cons word words ih =>
    intro n addr hn hwords
    obtain ⟨n, rfl⟩ : ∃ m, n = m + 1 := Nat.exists_eq_add_one.mpr (Nat.lt_of_lt_of_le (Nat.succ_pos _) hn)
    obtain ⟨hmem, hpeek⟩ := hwords 0 (Nat.succ_pos _)
    obtain ⟨rest, hrest⟩ := ih (addr := addr + 1) (Nat.le_of_succ_le_succ hn) fun k hk => by
      rw [add_one_add_ofNat]
      exact hwords (k + 1) (Nat.succ_lt_succ hk)
    have hzero : addr + BitVec.ofNat 16 0 = addr := BitVec.add_zero addr
    rw [hzero] at hmem hpeek
    have hword : word = s.peek addr := Option.some.inj hpeek
    exact ⟨rest, by rw [State.fetchFrom, if_pos (fetchable_iff_memoryAt.mpr hmem), hrest, hword]; rfl⟩

/-- A fetch that ends early ends at the first address that is not memory (R60). -/
theorem fetchFrom_ends : ∀ {n : Nat} {addr : Word}, (s.fetchFrom n addr).length < n →
    ¬ s.memoryAt (addr + BitVec.ofNat 16 (s.fetchFrom n addr).length) ∧
      ∀ j, j < (s.fetchFrom n addr).length → s.memoryAt (addr + BitVec.ofNat 16 j) := by
  intro n
  induction n with
  | zero => exact fun h => absurd h (Nat.not_lt_zero _)
  | succ n ih =>
    intro addr h
    have hzero : addr + BitVec.ofNat 16 0 = addr := BitVec.add_zero addr
    unfold State.fetchFrom at h ⊢
    split at h
    next hfetch =>
      obtain ⟨hend, hbefore⟩ := ih (Nat.lt_of_succ_lt_succ h)
      rw [if_pos hfetch, List.length_cons, ← add_one_add_ofNat]
      refine ⟨hend, fun j hj => ?_⟩
      cases j with
      | zero => rw [hzero]; exact fetchable_iff_memoryAt.mp hfetch
      | succ j => rw [← add_one_add_ofNat]; exact hbefore j (Nat.lt_of_succ_lt_succ hj)
    next hfetch =>
      rw [if_neg hfetch, List.length_nil, hzero]
      exact ⟨fun hmem => hfetch (fetchable_iff_memoryAt.mpr hmem), fun j hj => absurd hj (Nat.not_lt_zero _)⟩

theorem length_fetchFrom_le : ∀ (n : Nat) (addr : Word), (s.fetchFrom n addr).length ≤ n := by
  intro n
  induction n with
  | zero => exact fun _ => Nat.le_refl 0
  | succ n ih =>
    intro addr
    unfold State.fetchFrom
    split
    · exact Nat.succ_le_succ (ih (addr + 1))
    · exact Nat.zero_le _

/-- Bytes that end too early are fewer than the four that were asked for (R80). -/
theorem length_fetchBytes_of_truncated (h : decode s.fetchBytes = .error .truncated) : s.fetchBytes.length < 4 := by
  refine Nat.lt_of_le_of_ne (length_fetchFrom_le 4 s.pc) fun hfour => ?_
  obtain ⟨b0, b1, b2, b3, hbytes⟩ := List.length_eq_four.mp hfour
  rw [hbytes] at h
  exact untruncated_decode b0 b1 h

/-! ### An undisturbed step -/

/-- A step that no reset and no interrupt disturbs executes what the bytes at PC decode to (R81, R265). -/
theorem step_of_decode_ok {i : Instr} (hrun : s.run = .running) (hreset : s.env.reset = false) (hcut : s.env.cut = none)
    (hsrc : s.recognised = none) (h : decode s.fetchBytes = .ok i) :
    step s = mapNext State.tick (exec i (s.setMask .none)) := by
  rw [step, boundary_of_not_recognised hrun hreset hsrc, runInstr_of_decode_ok (by rwa [setMask_fetchBytes]),
    orCutShort_none (by rwa [State.setMask_env])]

/-- The same where they spell no instruction. -/
theorem step_of_decode_error {e : DecodeError} (hrun : s.run = .running) (hreset : s.env.reset = false)
    (hcut : s.env.cut = none) (hsrc : s.recognised = none) (h : decode s.fetchBytes = .error e) :
    step s = mapNext State.tick ((s.setMask .none).decodeError e) := by
  rw [step, boundary_of_not_recognised hrun hreset hsrc, runInstr_of_decode_error (by rwa [setMask_fetchBytes]),
    orCutShort_none (by rwa [State.setMask_env])]

theorem illegalOpcode_of_fault (h : s.cfg.illegalAction = .fault) (bytes : List Byte) :
    s.illegalOpcode bytes = .fault (.illegalOpcode s.pc bytes) := by
  rw [State.illegalOpcode, h]

theorem illegalOpcode_of_reset (h : s.cfg.illegalAction = .reset) (bytes : List Byte) : s.illegalOpcode bytes = s.takeReset := by
  rw [State.illegalOpcode, h]

/-- A step at an unassigned encoding is the fault or the reset that the parameter selects (R101, R261). -/
theorem step_of_illegalOpcode {e : DecodeError} {bytes : List Byte} (hrun : s.run = .running) (hreset : s.env.reset = false)
    (hcut : s.env.cut = none) (hsrc : s.recognised = none) (hdecode : decode s.fetchBytes = .error e)
    (he : (s.setMask .none).decodeError e = (s.setMask .none).illegalOpcode bytes) :
    (s.cfg.illegalAction = .fault → step s = .fault (.illegalOpcode s.pc bytes)) ∧
      (s.cfg.illegalAction = .reset → step s = mapNext State.tick (s.setMask .none).takeReset) := by
  rw [step_of_decode_error hrun hreset hcut hsrc hdecode, he]
  exact ⟨fun haction => congrArg _ (illegalOpcode_of_fault (s := s.setMask .none) haction bytes),
    fun haction => congrArg _ (illegalOpcode_of_reset (s := s.setMask .none) haction bytes)⟩

end

/-- Settles O7: the fetch begins with the words in memory, which decode to their instruction whatever follows. -/
theorem stepRunsStoredWords : Obligations.StepRunsStoredWords := by
  unfold Obligations.StepRunsStoredWords
  intro s i hrun hreset hcut hsrc hwf hwords
  obtain ⟨rest, hrest⟩ := exists_fetchFrom_eq_append (length_encode_le i) hwords
  refine step_of_decode_ok hrun hreset hcut hsrc ?_
  rw [State.fetchBytes, hrest]
  exact decode_encode_append rest hwf

/-- Settles O8: an unassigned encoding is what the parameter makes of it, and bytes that end too early end before the first address
that is not memory. -/
theorem stepWithoutInstruction : Obligations.StepWithoutInstruction := by
  unfold Obligations.StepWithoutInstruction
  intro s hrun hreset hcut hsrc
  refine ⟨fun b0 hdecode => step_of_illegalOpcode hrun hreset hcut hsrc hdecode rfl,
    fun b1 hdecode => step_of_illegalOpcode hrun hreset hcut hsrc hdecode rfl, fun hdecode => ?_⟩
  have hlen := length_fetchBytes_of_truncated hdecode
  obtain ⟨hend, hbefore⟩ := fetchFrom_ends hlen
  exact ⟨s.fetchBytes.length, hlen, hend, hbefore, step_of_decode_error hrun hreset hcut hsrc hdecode⟩

end Sys2Proof.Machine
end

section
/-! SUPPORT. What an entry of the opcode map can be (30_encoding.md R81, R82): an instruction with none, one or two operand bytes,
whose words are the opcode and those bytes, or an unassigned encoding. Every column of the decoder holds such entries. -/

namespace Sys2Proof

open Machine (hiByte_wordOf loByte_wordOf)

/-- A well-formed core instruction and its words (R82, R103). -/
structure Instr.Spelled (i : Instr) (words : List Byte) : Prop where
  wellFormed : i.wellFormed = true
  core : i.canonical = i
  words : encode i = words

/-- What the decoder makes of the bytes after the opcode `w`, which is a first byte or the prebyte and a second byte. -/
inductive MapEntry : List Byte → (List Byte → Decoded) → Prop where
  | op0 {w : List Byte} {i : Instr} (h : i.Spelled w) : MapEntry w (op0 i)
  | op1 {w : List Byte} {k : Byte → Instr} (h : ∀ b, (k b).Spelled (w ++ [b])) : MapEntry w (op1 k)
  | op2 {w : List Byte} {k : Byte → Byte → Instr} (h : ∀ b c, (k b c).Spelled (w ++ [b, c])) : MapEntry w (op2 k)
  | unassigned (b0 : Byte) : MapEntry [b0] fun _ => .error (.unassigned b0)
  | unassignedPage2 (b1 : Byte) : MapEntry [prebyte, b1] fun _ => .error (.unassignedPage2 b1)

theorem MapEntry.opWord {w : List Byte} {k : Word → Instr} (h : ∀ v, (k v).Spelled (w ++ [hiByte v, loByte v])) :
    MapEntry w (opWord k) :=
  .op2 fun hi lo => by
    have hv := h (wordOf hi lo)
    rwa [hiByte_wordOf, loByte_wordOf] at hv

/-! ### What an entry says -/

section
variable {w : List Byte} {f : List Byte → Decoded}

/-- The instruction read at an entry is spelled by the first of the bytes. -/
theorem MapEntry.spelled_of_ok {rest : List Byte} {i : Instr} (hf : MapEntry w f) (h : f rest = .ok i) :
    ∃ words, i.Spelled words ∧ words <+: w ++ rest := by
  cases hf with
  | op0 hi =>
    cases h
    exact ⟨w, hi, List.prefix_append w rest⟩
  | op1 hk =>
    match rest, h with
    | b :: rest, rfl => exact ⟨w ++ [b], hk b, rest, by simp⟩
  | op2 hk =>
    match rest, h with
    | b :: c :: rest, rfl => exact ⟨w ++ [b, c], hk b c, rest, by simp⟩
  | unassigned b0 => cases h
  | unassignedPage2 b1 => cases h

theorem op1_eq_error {k : Byte → Instr} {rest : List Byte} {e : DecodeError} (h : op1 k rest = .error e) : e = .truncated := by
  match rest, h with
  | [], rfl => rfl

theorem op2_eq_error {k : Byte → Byte → Instr} {rest : List Byte} {e : DecodeError} (h : op2 k rest = .error e) :
    e = .truncated := by
  match rest, h with
  | [], rfl => rfl
  | [_], rfl => rfl

/-- Whether an encoding is unassigned does not depend on the bytes after the opcode. -/
theorem MapEntry.error_of_error {e : DecodeError} {rest : List Byte} (hf : MapEntry w f) (he : e ≠ .truncated)
    (h : f rest = .error e) (rest' : List Byte) : f rest' = .error e := by
  cases hf with
  | op0 hi => cases h
  | op1 hk => exact absurd (op1_eq_error h) he
  | op2 hk => exact absurd (op2_eq_error h) he
  | unassigned b0 => exact h
  | unassignedPage2 b1 => exact h

theorem MapEntry.error_iff {e : DecodeError} (hf : MapEntry w f) (he : e ≠ .truncated) (rest rest' : List Byte) :
    f rest = .error e ↔ f rest' = .error e :=
  ⟨fun h => hf.error_of_error he h rest', fun h => hf.error_of_error he h rest⟩

end

/-- No entry of page 2 is an unassigned first byte. -/
theorem MapEntry.page2_ne_unassigned {b1 : Byte} {f : List Byte → Decoded} (hf : MapEntry [prebyte, b1] f) (b : Byte)
    (rest : List Byte) : f rest ≠ .error (.unassigned b) := by
  intro h
  cases hf with
  | op0 hi => cases h
  | op1 hk => cases op1_eq_error h
  | op2 hk => cases op2_eq_error h
  | unassignedPage2 => cases h

/-! ### Rows that several columns share -/

section
variable {row : Nat}

theorem spelled_of_rmwRow {k : Ea → Instr} {ea : Ea} (h : rmwRow row = some k) (hea : ea.rmwForm = true) :
    (k ea).Spelled (rmwWords (BitVec.ofNat 8 row) ea) := by
  unfold rmwRow at h
  split at h <;> cases h <;> exact ⟨hea, rfl, rfl⟩

theorem spelled_of_srcRow {k : Src → Instr} (h : srcRow row = some k) (src : Src) :
    (k src).Spelled (srcWords (BitVec.ofNat 8 row) src) := by
  unfold srcRow at h
  split at h <;> cases h <;> exact ⟨rfl, rfl, rfl⟩

theorem spelled_of_memRow {k : Ea → Instr} (h : memRow row = some k) (ea : Ea) :
    (k ea).Spelled (memWords (BitVec.ofNat 8 row) ea) := by
  unfold memRow at h
  split at h
  · cases h
    exact ⟨rfl, rfl, rfl⟩
  · cases h
    exact ⟨rfl, rfl, rfl⟩
  · obtain ⟨k', hk', rfl⟩ := Option.map_eq_some_iff.mp h
    exact spelled_of_srcRow hk' (.mem ea)

/-- JMP and JSR have the forms of page 1, and there the words of the others (R107). -/
theorem jumpWords_of_jumpForm (op : Byte) {ea : Ea} (h : ea.jumpForm = true) : jumpWords op ea = memWords op ea := by
  cases ea with
  | dir b | ext v | ix2 v | ix1 b | ix => rfl
  | sp1 b | sp2 v => cases h

theorem spelled_of_memRowPage1 {k : Ea → Instr} {ea : Ea} (h : memRowPage1 row = some k) (hea : ea.jumpForm = true) :
    (k ea).Spelled (memWords (BitVec.ofNat 8 row) ea) := by
  unfold memRowPage1 at h
  split at h
  · cases h
    exact ⟨hea, rfl, jumpWords_of_jumpForm _ hea⟩
  · cases h
    exact ⟨hea, rfl, jumpWords_of_jumpForm _ hea⟩
  · exact spelled_of_memRow h ea

end

/-! ### The columns of page 1 -/

/-- An opcode is its column, the high nibble, and its row, the low one. -/
theorem eq_column_add_row (b : Byte) :
    b = BitVec.ofNat 8 (16 * (b.extractLsb' 4 4).toNat) + BitVec.ofNat 8 (b.extractLsb' 0 4).toNat := by
  revert b
  decide

/-- The opcodes of columns 0 and 1 are those of the bit instructions (R106). -/
theorem exists_eq_bitOpcode {b : Byte} (h : (b.extractLsb' 4 4).toNat < 2) : ∃ t n c, b = bitOpcode t n c := by
  have hfields : ∀ b : Byte, (b.extractLsb' 4 4).toNat < 2 →
      b = bitOpcode (b.extractLsb' 4 1) (b.extractLsb' 1 3) (b.extractLsb' 0 1) := by decide
  exact ⟨_, _, _, hfields b h⟩

theorem mapEntry_decodeBit {b0 : Byte} (h : (b0.extractLsb' 4 4).toNat < 2) : MapEntry [b0] (decodeBit b0) := by
  obtain ⟨t, n, c, rfl⟩ := exists_eq_bitOpcode h
  have hbit : ∀ b : BitVec 1, b = 0 ∨ b = 1 := by decide
  rw [funext fun rest => decodeBit_bitOpcode rest t n c]
  rcases hbit t with rfl | rfl <;> rcases hbit c with rfl | rfl
  · exact .op2 fun _ _ => ⟨rfl, rfl, rfl⟩
  · exact .op2 fun _ _ => ⟨rfl, rfl, rfl⟩
  · exact .op1 fun _ => ⟨rfl, rfl, rfl⟩
  · exact .op1 fun _ => ⟨rfl, rfl, rfl⟩

section
variable (row : Nat)

theorem mapEntry_decodeBranch {row : Nat} (hrow : row < 16) : MapEntry [0x20 + BitVec.ofNat 8 row] (decodeBranch row) := by
  interval_cases row <;> exact .op1 fun _ => ⟨rfl, rfl, rfl⟩

theorem mapEntry_decodeCol3 :
    MapEntry [0x30 + BitVec.ofNat 8 row] (decodeCol3 (0x30 + BitVec.ofNat 8 row) row) := by
  unfold decodeCol3
  split
  · exact .op2 fun _ _ => ⟨rfl, rfl, rfl⟩
  · exact .op1 fun _ => ⟨rfl, rfl, rfl⟩
  · exact .op2 fun _ _ => ⟨rfl, rfl, rfl⟩
  · split
    next hk => exact .op1 fun _ => spelled_of_rmwRow hk rfl
    next => exact .unassigned _

theorem mapEntry_decodeCol4 :
    MapEntry [0x40 + BitVec.ofNat 8 row] (decodeCol4 (0x40 + BitVec.ofNat 8 row) row) := by
  unfold decodeCol4
  split
  case h_2 | h_15 => exact .op2 fun _ _ => ⟨rfl, rfl, rfl⟩
  case h_6 => exact .opWord fun _ => ⟨rfl, rfl, rfl⟩
  case h_12 => exact .op1 fun _ => ⟨rfl, rfl, rfl⟩
  case h_17 => exact .unassigned _
  all_goals exact .op0 ⟨rfl, rfl, rfl⟩

theorem mapEntry_decodeCol5 :
    MapEntry [0x50 + BitVec.ofNat 8 row] (decodeCol5 (0x50 + BitVec.ofNat 8 row) row) := by
  unfold decodeCol5
  split
  case h_2 => exact .op2 fun _ _ => ⟨rfl, rfl, rfl⟩
  case h_6 | h_12 | h_15 => exact .op1 fun _ => ⟨rfl, rfl, rfl⟩
  case h_17 => exact .unassigned _
  all_goals exact .op0 ⟨rfl, rfl, rfl⟩

theorem mapEntry_decodeCol6 :
    MapEntry [0x60 + BitVec.ofNat 8 row] (decodeCol6 (0x60 + BitVec.ofNat 8 row) row) := by
  unfold decodeCol6
  split
  · exact .op2 fun _ _ => ⟨rfl, rfl, rfl⟩
  · exact .op0 ⟨rfl, rfl, rfl⟩
  · exact .opWord fun _ => ⟨rfl, rfl, rfl⟩
  · exact .op2 fun _ _ => ⟨rfl, rfl, rfl⟩
  · exact .op2 fun _ _ => ⟨rfl, rfl, rfl⟩
  · split
    next hk => exact .op1 fun _ => spelled_of_rmwRow hk rfl
    next => exact .unassigned _

theorem mapEntry_decodeCol7 :
    MapEntry [0x70 + BitVec.ofNat 8 row] (decodeCol7 (0x70 + BitVec.ofNat 8 row) row) := by
  unfold decodeCol7
  split
  · exact .op1 fun _ => ⟨rfl, rfl, rfl⟩
  · exact .op0 ⟨rfl, rfl, rfl⟩
  · exact .op1 fun _ => ⟨rfl, rfl, rfl⟩
  · exact .op1 fun _ => ⟨rfl, rfl, rfl⟩
  · exact .op1 fun _ => ⟨rfl, rfl, rfl⟩
  · split
    next hk => exact .op0 (spelled_of_rmwRow hk rfl)
    next => exact .unassigned _

theorem mapEntry_decodeCol8 :
    MapEntry [0x80 + BitVec.ofNat 8 row] (decodeCol8 (0x80 + BitVec.ofNat 8 row) row) := by
  unfold decodeCol8
  split
  case h_15 => exact .unassigned _
  all_goals exact .op0 ⟨rfl, rfl, rfl⟩

theorem mapEntry_decodeCol9 :
    MapEntry [0x90 + BitVec.ofNat 8 row] (decodeCol9 (0x90 + BitVec.ofNat 8 row) row) := by
  unfold decodeCol9
  split
  case h_1 | h_2 | h_3 | h_4 => exact .op1 fun _ => ⟨rfl, rfl, rfl⟩
  case h_15 => exact .unassigned _
  all_goals exact .op0 ⟨rfl, rfl, rfl⟩

theorem mapEntry_decodeColA :
    MapEntry [0xA0 + BitVec.ofNat 8 row] (decodeColA (0xA0 + BitVec.ofNat 8 row) row) := by
  unfold decodeColA
  split
  · exact .op1 fun _ => ⟨rfl, rfl, rfl⟩
  · exact .op1 fun _ => ⟨rfl, rfl, rfl⟩
  · exact .op1 fun _ => ⟨rfl, rfl, rfl⟩
  · split
    next hk => exact .op1 fun _ => spelled_of_srcRow hk _
    next => exact .unassigned _

theorem mapEntry_decodeMem {b0 : Byte} {row : Nat} {form : (Ea → Instr) → List Byte → Decoded}
    (hform : ∀ k, memRowPage1 row = some k → MapEntry [b0] (form k)) : MapEntry [b0] (decodeMem b0 row form) := by
  unfold decodeMem
  cases hk : memRowPage1 row with
  | some k => exact hform k hk
  | none => exact .unassigned b0

end

/-- The first byte is an entry of the map of page 1. -/
theorem mapEntry_decodePage1 (b0 : Byte) : MapEntry [b0] (decodePage1 b0) := by
  have hb := eq_column_add_row b0
  have hbit := mapEntry_decodeBit (b0 := b0)
  have hcolumn : (b0.extractLsb' 4 4).toNat < 16 := (b0.extractLsb' 4 4).isLt
  have hrow : (b0.extractLsb' 0 4).toNat < 16 := (b0.extractLsb' 0 4).isLt
  unfold decodePage1
  generalize (b0.extractLsb' 4 4).toNat = column, (b0.extractLsb' 0 4).toNat = row at *
  subst hb
  interval_cases column
  · exact hbit Nat.two_pos
  · exact hbit Nat.one_lt_two
  · exact mapEntry_decodeBranch hrow
  · exact mapEntry_decodeCol3 row
  · exact mapEntry_decodeCol4 row
  · exact mapEntry_decodeCol5 row
  · exact mapEntry_decodeCol6 row
  · exact mapEntry_decodeCol7 row
  · exact mapEntry_decodeCol8 row
  · exact mapEntry_decodeCol9 row
  · exact mapEntry_decodeColA row
  · exact mapEntry_decodeMem fun _ hk => .op1 fun dd => spelled_of_memRowPage1 (ea := .dir dd) hk rfl
  · exact mapEntry_decodeMem fun _ hk => .opWord fun v => spelled_of_memRowPage1 (ea := .ext v) hk rfl
  · exact mapEntry_decodeMem fun _ hk => .opWord fun v => spelled_of_memRowPage1 (ea := .ix2 v) hk rfl
  · exact mapEntry_decodeMem fun _ hk => .op1 fun ff => spelled_of_memRowPage1 (ea := .ix1 ff) hk rfl
  · exact mapEntry_decodeMem fun _ hk => .op0 (spelled_of_memRowPage1 (ea := .ix) hk rfl)

/-! ### The columns of page 2 -/

section
variable (row : Nat)

theorem mapEntry_decodeCol9E6 :
    MapEntry [prebyte, 0x60 + BitVec.ofNat 8 row] (decodeCol9E6 (0x60 + BitVec.ofNat 8 row) row) := by
  unfold decodeCol9E6
  split
  · exact .op2 fun _ _ => ⟨rfl, rfl, rfl⟩
  · exact .op2 fun _ _ => ⟨rfl, rfl, rfl⟩
  · split
    next hk => exact .op1 fun _ => spelled_of_rmwRow hk rfl
    next => exact .unassignedPage2 _

theorem mapEntry_decodeMemPage2 {b1 : Byte} {row : Nat} {form : (Ea → Instr) → List Byte → Decoded}
    (hform : ∀ k, memRow row = some k → MapEntry [prebyte, b1] (form k)) :
    MapEntry [prebyte, b1] (decodeMemPage2 b1 row form) := by
  unfold decodeMemPage2
  cases hk : memRow row with
  | some k => exact hform k hk
  | none => exact .unassignedPage2 b1

end

/-- The second byte is an entry of the map of page 2. -/
theorem mapEntry_decodePage2 (b1 : Byte) : MapEntry [prebyte, b1] fun rest => decodePage2 (b1 :: rest) := by
  have hb := eq_column_add_row b1
  have hcolumn : (b1.extractLsb' 4 4).toNat < 16 := (b1.extractLsb' 4 4).isLt
  simp only [decodePage2]
  generalize (b1.extractLsb' 4 4).toNat = column, (b1.extractLsb' 0 4).toNat = row at *
  subst hb
  interval_cases column
  iterate 6 exact .unassignedPage2 _
  · exact mapEntry_decodeCol9E6 row
  iterate 6 exact .unassignedPage2 _
  · exact mapEntry_decodeMemPage2 fun _ hk => .opWord fun v => spelled_of_memRow hk (.sp2 v)
  · exact mapEntry_decodeMemPage2 fun _ hk => .op1 fun ff => spelled_of_memRow hk (.sp1 ff)
  · exact .unassignedPage2 _

/-! ### The decoder -/

theorem decode_cons_of_ne_prebyte {b : Byte} (h : b ≠ prebyte) (rest : List Byte) : decode (b :: rest) = decodePage1 b rest :=
  if_neg h

theorem decode_prebyte_cons (rest : List Byte) : decode (prebyte :: rest) = decodePage2 rest := by
  rw [decode, if_pos rfl]

/-- What decodes is spelled by the first of the bytes. -/
theorem spelled_of_decode {bytes : List Byte} {i : Instr} (h : decode bytes = .ok i) :
    ∃ words, i.Spelled words ∧ words <+: bytes := by
  cases bytes with
  | nil => cases h
  | cons b rest =>
    by_cases hb : b = prebyte
    · subst hb
      rw [decode_prebyte_cons] at h
      cases rest with
      | nil => cases h
      | cons b1 rest => exact (mapEntry_decodePage2 b1).spelled_of_ok h
    · rw [decode_cons_of_ne_prebyte hb] at h
      exact (mapEntry_decodePage1 b).spelled_of_ok h

theorem decode_prebyte_ne_unassigned (b : Byte) (rest : List Byte) : decode (prebyte :: rest) ≠ .error (.unassigned b) := by
  rw [decode_prebyte_cons]
  cases rest with
  | nil => intro h; cases h
  | cons b1 rest => exact (mapEntry_decodePage2 b1).page2_ne_unassigned b rest

/-- Whether a first byte is unassigned shows on that byte alone. -/
theorem decode_eq_unassigned_iff (b : Byte) (rest : List Byte) :
    decode (b :: rest) = .error (.unassigned b) ↔ decode [b] = .error (.unassigned b) := by
  by_cases hb : b = prebyte
  · subst hb
    exact iff_of_false (decode_prebyte_ne_unassigned _ _) (decode_prebyte_ne_unassigned _ _)
  · rw [decode_cons_of_ne_prebyte hb, decode_cons_of_ne_prebyte hb]
    exact (mapEntry_decodePage1 b).error_iff (by simp) rest []

/-- Whether a second byte is unassigned shows on the two bytes alone. -/
theorem decode_eq_unassignedPage2_iff (b : Byte) (rest : List Byte) :
    decode (prebyte :: b :: rest) = .error (.unassignedPage2 b) ↔ decode [prebyte, b] = .error (.unassignedPage2 b) := by
  rw [decode_prebyte_cons, decode_prebyte_cons]
  exact (mapEntry_decodePage2 b).error_iff (by simp) rest []

/-- The words of a well-formed instruction are as many as its form has bytes (R104). -/
theorem length_encode {i : Instr} (h : i.wellFormed = true) : (encode i).length = i.length := by
  cases i with
  | neg ea => exact Laws.EncodeLength.neg ea h
  | com ea => exact Laws.EncodeLength.com ea h
  | lsr ea => exact Laws.EncodeLength.lsr ea h
  | ror ea => exact Laws.EncodeLength.ror ea h
  | asr ea => exact Laws.EncodeLength.asr ea h
  | lsl ea => exact Laws.EncodeLength.lsl ea h
  | rol ea => exact Laws.EncodeLength.rol ea h
  | dec ea => exact Laws.EncodeLength.dec ea h
  | inc ea => exact Laws.EncodeLength.inc ea h
  | tst ea => exact Laws.EncodeLength.tst ea h
  | clr ea => exact Laws.EncodeLength.clr ea h
  | asl ea => exact Laws.EncodeLength.asl ea h
  | dbnz ea rr => exact Laws.EncodeLength.dbnz ea rr h
  | cbeq form rr => exact Laws.EncodeLength.cbeq form rr h
  | mov form => exact Laws.EncodeLength.mov form h
  | ldhx src => exact Laws.EncodeLength.ldhx src h
  | cphx src => exact Laws.EncodeLength.cphx src h
  | sub src => exact Laws.EncodeLength.sub src h
  | cmp src => exact Laws.EncodeLength.cmp src h
  | sbc src => exact Laws.EncodeLength.sbc src h
  | cpx src => exact Laws.EncodeLength.cpx src h
  | and src => exact Laws.EncodeLength.and src h
  | bit src => exact Laws.EncodeLength.bit src h
  | lda src => exact Laws.EncodeLength.lda src h
  | eor src => exact Laws.EncodeLength.eor src h
  | adc src => exact Laws.EncodeLength.adc src h
  | ora src => exact Laws.EncodeLength.ora src h
  | add src => exact Laws.EncodeLength.add src h
  | ldx src => exact Laws.EncodeLength.ldx src h
  | sta ea => exact Laws.EncodeLength.sta ea h
  | stx ea => exact Laws.EncodeLength.stx ea h
  | jmp ea => exact Laws.EncodeLength.jmp ea h
  | jsr ea => exact Laws.EncodeLength.jsr ea h
  | _ => rfl

end Sys2Proof
end

section
/-! CERTIFICATES. Encoding: the two round trips, the unassigned encodings, some words, the second names, and the step that executes
what the bytes at PC decode to (30_encoding.md R80 to R82, R99, R100, R103, R104). -/

namespace Sys2Proof

/-- Settles O1, from the round trip through the words of each form. -/
theorem decodeEncodeRoundTrip : Obligations.DecodeEncodeRoundTrip := by
  unfold Obligations.DecodeEncodeRoundTrip
  exact fun i rest h => decode_encode_append rest h

/-- Settles O2: an entry of the map is an instruction whose words are the opcode and the operand bytes read after it. -/
theorem encodeDecodeRoundTrip : Obligations.EncodeDecodeRoundTrip := by
  unfold Obligations.EncodeDecodeRoundTrip
  intro bytes i h
  obtain ⟨words, ⟨hwf, hcore, rfl⟩, hwords⟩ := spelled_of_decode h
  rw [← length_encode hwf]
  exact ⟨hwf, hcore, hwords.length_le, (List.prefix_iff_eq_take.mp hwords).symm⟩

/-- Settles O3: no byte after the opcode matters, and the opcodes alone are finitely many. -/
theorem unassignedEncodings : Obligations.UnassignedEncodings := by
  unfold Obligations.UnassignedEncodings
  intro b rest
  refine ⟨(decode_eq_unassigned_iff b rest).trans ?_, (decode_eq_unassignedPage2_iff b rest).trans ?_⟩
  · revert b
    decide
  · revert b
    decide

/-- Settles O4, by evaluating the decoder on each of the words. -/
theorem sampleWordsDecode : Obligations.SampleWordsDecode := by
  unfold Obligations.SampleWordsDecode
  exact ⟨rfl, rfl, rfl, rfl, rfl, rfl, rfl, rfl, rfl⟩

/-- Settles O5: each function of the model treats the two names alike. -/
theorem aliasesAgree : Obligations.AliasesAgree := by
  unfold Obligations.AliasesAgree
  exact ⟨fun _ => ⟨rfl, rfl, rfl, fun _ => rfl⟩, ⟨rfl, rfl, rfl, fun _ => rfl⟩, ⟨rfl, rfl, rfl, fun _ => rfl⟩,
    fun _ => ⟨rfl, rfl, rfl, fun _ => rfl⟩, fun _ => ⟨rfl, rfl, rfl, fun _ => rfl⟩⟩

/-- Settles O6: the boundary is taken by the instruction, and nothing cuts it short. -/
theorem stepRunsDecoded : Obligations.StepRunsDecoded := by
  unfold Obligations.StepRunsDecoded
  exact fun _ _ hrun hreset hcut hsrc hdecode => Machine.step_of_decode_ok hrun hreset hcut hsrc hdecode

end Sys2Proof
end

section
/-! CERTIFICATES. Bit manipulation: BSET and BCLR, BRSET and BRCLR (40_bit_manipulation.md R120 to R124). -/

namespace Sys2Proof.Machine

variable {s : State} {dd : Byte}

/-- The opcode of a bit instruction as a number: the fields `t` and `c` give its base, and `n` counts in twos (R106). -/
theorem bitOpcode_eq_add (t : BitVec 1) (n : BitVec 3) (c : BitVec 1) :
    bitOpcode t n c = BitVec.ofNat 8 (16 * t.toNat + c.toNat) + BitVec.ofNat 8 (2 * n.toNat) := by
  revert t n c; decide

/-- The offset of a relative branch, widened with its sign (R94; D7, log 21). -/
theorem sext16_eq_signExtend (v : Byte) : sext16 v = v.signExtend 16 := rfl

/-- The mask has bit n alone (R120). -/
theorem getLsbD_bitMask (n : BitVec 3) (k : Nat) : (bitMask n).getLsbD k = decide (n.toNat = k) := by
  have hn : n.toNat < 8 := n.isLt
  have hmask : bitMask n = BitVec.twoPow 8 n.toNat := rfl
  simp [hmask, BitVec.getLsbD_twoPow, hn]

/-- OR with the mask sets bit n and keeps the others (R124). -/
theorem getLsbD_or_bitMask (m : Byte) (n : BitVec 3) (k : Nat) :
    (m ||| bitMask n).getLsbD k = if k = n.toNat then true else m.getLsbD k := by
  rw [BitVec.getLsbD_or, getLsbD_bitMask]
  split <;> simp_all [eq_comm]

/-- AND with the complement of the mask clears bit n and keeps the others (R121). -/
theorem getLsbD_and_not_bitMask (m : Byte) (n : BitVec 3) {k : Nat} (hk : k < 8) :
    (m &&& ~~~ bitMask n).getLsbD k = if k = n.toNat then false else m.getLsbD k := by
  rw [BitVec.getLsbD_and, BitVec.getLsbD_not, getLsbD_bitMask]
  split <;> simp_all [eq_comm]

/-- One read and one write of the byte, then the next instruction (R120). -/
theorem bitModify_of_present (h : s.present (directAddr dd) = true) (f : Byte → Byte) :
    bitModify f dd s = .next
      { (s.afterRead (directAddr dd)).afterWrite (directAddr dd) (f (s.byteAt (directAddr dd))) with pc := s.pc + 2 } := by
  have hwrite : (s.afterRead (directAddr dd)).present (directAddr dd) = true := by rwa [State.afterRead_present]
  rw [bitModify, readByte_of_present h, writeByte_of_present hwrite]
  simp [State.advance, State.setPc, State.nextPc]

/-- One read of the byte, whose bit n goes to C and, compared with the wanted value, decides the branch (R120; D10, log 24). -/
theorem bitBranch_of_present (h : s.present (directAddr dd) = true) (n : BitVec 3) (rr : Byte) (want : Bool) :
    bitBranch n dd rr want s = .next
      { s.afterRead (directAddr dd) with
        ccr := { s.ccr with c := (s.byteAt (directAddr dd)).getLsbD n.toNat }
        pc := if (s.byteAt (directAddr dd)).getLsbD n.toNat = want then s.pc + 3 + rr.signExtend 16 else s.pc + 3 } := by
  rw [bitBranch, readByte_of_present h]
  simp [State.branch, State.branchTarget, State.setCcr, State.setPc, State.nextPc, sext16_eq_signExtend]

end Sys2Proof.Machine

namespace Sys2Proof

open Machine (bitMask directAddr)

/-- Settles O20: the two bytes written are the byte read with the mask, and with its complement. -/
theorem bitModify : Obligations.BitModify := by
  unfold Obligations.BitModify
  intro n dd s
  refine ⟨⟨?_, rfl, rfl⟩, ⟨?_, rfl, rfl⟩, fun h => ?_⟩
  · exact congrArg (· :: [dd]) (Machine.bitOpcode_eq_add 1 n 0)
  · exact congrArg (· :: [dd]) (Machine.bitOpcode_eq_add 1 n 1)
  · exact ⟨s.byteAt (directAddr dd) ||| bitMask n, s.byteAt (directAddr dd) &&& ~~~ bitMask n,
      fun k _ => Machine.getLsbD_or_bitMask _ n k, fun _ hk => Machine.getLsbD_and_not_bitMask _ n hk,
      Machine.bitModify_of_present h (· ||| bitMask n), Machine.bitModify_of_present h (· &&& ~~~ bitMask n)⟩

/-- Settles O21: both put bit n into C; BRSET goes to the target where it is 1, BRCLR where it is not. -/
theorem bitBranch : Obligations.BitBranch := by
  unfold Obligations.BitBranch
  intro n dd rr s
  refine ⟨⟨?_, rfl, rfl⟩, ⟨?_, rfl, rfl⟩, fun h => ⟨?_, ?_⟩⟩
  · exact congrArg (· :: [dd, rr]) (Machine.bitOpcode_eq_add 0 n 0)
  · exact congrArg (· :: [dd, rr]) (Machine.bitOpcode_eq_add 0 n 1)
  · exact Machine.bitBranch_of_present h n rr true
  · have hbrclr := Machine.bitBranch_of_present h n rr false
    simp only [← Bool.not_eq_true, ite_not] at hbrclr
    exact hbrclr

end Sys2Proof
end

section
/-! CERTIFICATES. The conditional branches (41_branch.md R130 to R152), and a call followed by its return (R153, R211, R241). -/

namespace Sys2Proof.Machine

/-! ### Conditional branches -/

/-- The offset counts from the address after the branch, which is two bytes long (R94, R130; D7, log 21). -/
theorem condBranch_eq_next (rr : Byte) (cond : Bool) (s : State) :
    condBranch rr cond s = .next { s with pc := if cond then s.pc + 2 + rr.signExtend 16 else s.pc + 2 } := rfl

/-- A branch of two words and three cycles that decides by `cond` means what R130 says. -/
theorem branchMeans_of_condBranch {i : Byte → Instr} {op : Byte} {cond : State → Bool} (hform : ∀ rr, HasForm (i rr) [op, rr] 3)
    (hexec : ∀ rr s, exec (i rr) s = condBranch rr (cond s) s) : BranchMeans i op cond :=
  fun rr s => ⟨hform rr, (hexec rr s).trans (condBranch_eq_next rr (cond s) s)⟩

/-- Two flags are equal exactly when their exclusive or is 0. -/
theorem not_xor_eq_beq (n v : Bool) : (!(n ^^ v)) = (n == v) := by
  cases n <;> cases v <;> rfl

/-- The condition of BGE is N = V (R134; log 33). -/
theorem exec_bge (rr : Byte) (s : State) : exec (.bge rr) s = condBranch rr (s.ccr.n == s.ccr.v) s :=
  congrArg (condBranch rr · s) (not_xor_eq_beq s.ccr.n s.ccr.v)

/-- The condition of BGT is Z = 0 and N = V (R135; log 33). -/
theorem exec_bgt (rr : Byte) (s : State) : exec (.bgt rr) s = condBranch rr (!s.ccr.z && s.ccr.n == s.ccr.v) s := by
  show execBgt rr s = _
  rw [execBgt, Bool.not_or, not_xor_eq_beq]

/-- Settles O22: each branch has its opcode and decides by its condition; those of BGE and BGT are put as an equality of flags. -/
theorem conditionalBranches : Obligations.ConditionalBranches := by
  unfold Obligations.ConditionalBranches
  refine ⟨?_, ?_, ?_, ?_, ?_, ?_, ?_, ?_, ?_, ?_, ?_, ?_, ?_, ?_, ?_, ?_, ?_, ?_, ?bge, ?_, ?bgt, ?_⟩
  case bge => exact branchMeans_of_condBranch (fun _ => ⟨rfl, rfl, rfl⟩) exec_bge
  case bgt => exact branchMeans_of_condBranch (fun _ => ⟨rfl, rfl, rfl⟩) exec_bgt
  all_goals exact branchMeans_of_condBranch (fun _ => ⟨rfl, rfl, rfl⟩) fun _ _ => rfl

/-! ### A call and its return -/

/-- The state with a return address on the stack, its high byte below its low byte (R59). -/
def State.afterPushWord (s : State) (v : Word) : State :=
  ((s.afterWrite s.sp (loByte v)).afterWrite (s.sp - 1) (hiByte v)).setSp (s.sp - 2)

section
variable {s : State}

/-- A call, JSR or BSR, leaves the address of the next instruction on the stack and PC somewhere (R153, R241). -/
theorem eq_afterPushWord_of_call {t : State} {len : Nat} (hlo : s.present s.sp = true) (hhi : s.present (s.sp - 1) = true)
    (h : (∃ ea : Ea, ea.length = len ∧ exec (.jsr ea) s = .next t) ∨ (∃ rr, len = 2 ∧ exec (.bsr rr) s = .next t)) :
    ∃ target, t = (s.afterPushWord (s.nextPc len)).setPc target := by
  rcases h with ⟨ea, rfl, hjsr⟩ | ⟨rr, rfl, hbsr⟩
  · cases (pushWord_of_present hlo hhi (s.nextPc ea.length) _).symm.trans hjsr
    exact ⟨s.ea ea, rfl⟩
  · cases (pushWord_of_present hlo hhi (s.nextPc 2) _).symm.trans hbsr
    exact ⟨s.branchTarget 2 rr, rfl⟩

/-- A pull from memory (R9). -/
theorem pull_of_memoryAt (h : s.memoryAt (s.sp + 1)) (k : Byte → State → Out) :
    s.pull k = k (s.peek (s.sp + 1)) (s.setSp (s.sp + 1)) :=
  readByte_of_memoryAt (s := s.setSp (s.sp + 1)) h k

/-- RTS from memory goes to the word above SP, its high byte at the lower address (R211). -/
theorem exec_rts_of_memoryAt (hhi : s.memoryAt (s.sp + 1)) (hlo : s.memoryAt (s.sp + 2)) :
    exec .rts s = .next ((s.setSp (s.sp + 2)).setPc (wordOf (s.peek (s.sp + 1)) (s.peek (s.sp + 2)))) := by
  have hsp : s.sp + 1 + 1 = s.sp + 2 := add_assoc s.sp 1 1
  show execRts s = _
  rw [execRts, State.pullWord, pull_of_memoryAt hhi, pull_of_memoryAt (by rwa [State.setSp_sp, hsp]), State.setSp_sp, hsp]
  rfl

/-- A word pushed on a RAM stack stands there, high byte first: the second push does not touch the byte of the first. -/
theorem afterPushWord_peek (v : Word) (hmem : s.mem.wf = true) (hlo : s.kind s.sp = .ram) (hhi : s.kind (s.sp - 1) = .ram) :
    (s.afterPushWord v).peek (s.sp - 1) = hiByte v ∧ (s.afterPushWord v).peek s.sp = loByte v := by
  have hne : s.sp ≠ s.sp - 1 := by bv_omega
  constructor
  · exact State.afterWrite_peek_same _ _ (State.afterWrite_wf _ _ hmem) (by rwa [State.afterWrite_kind])
  · exact (State.afterWrite_peek_other _ hne).trans (State.afterWrite_peek_same _ _ hmem hlo)

/-- RTS goes back to a return address pushed on a RAM stack, wherever PC is by then, and restores SP (R59, R211). -/
theorem exec_rts_of_afterPushWord (v target : Word) (hmem : s.mem.wf = true) (hlo : s.kind s.sp = .ram)
    (hhi : s.kind (s.sp - 1) = .ram) :
    exec .rts ((s.afterPushWord v).setPc target) = .next (((s.afterPushWord v).setSp s.sp).setPc v) := by
  set t := (s.afterPushWord v).setPc target with ht
  have hkind : ∀ addr, t.kind addr = s.kind addr := by simp [ht, State.afterPushWord]
  have hsp1 : t.sp + 1 = s.sp - 1 := by
    show s.sp - 2 + 1 = s.sp - 1
    bv_omega
  have hsp2 : t.sp + 2 = s.sp := sub_add_cancel s.sp 2
  obtain ⟨hpeekHi, hpeekLo⟩ : t.peek (s.sp - 1) = hiByte v ∧ t.peek s.sp = loByte v := afterPushWord_peek v hmem hlo hhi
  rw [exec_rts_of_memoryAt (by rw [hsp1]; exact .inl ((hkind _).trans hhi)) (by rw [hsp2]; exact .inl ((hkind _).trans hlo)),
    hsp1, hsp2, hpeekHi, hpeekLo, wordOf_hiByte_loByte]
  rfl

end

/-- Settles O25: a call pushes the address after it, and RTS goes back to the address pushed. -/
theorem callThenReturn : Obligations.CallThenReturn := by
  unfold Obligations.CallThenReturn
  intro s t len hmem hlo hhi hcall
  obtain ⟨target, rfl⟩ := eq_afterPushWord_of_call (present_of_memoryAt (.inl hlo)) (present_of_memoryAt (.inl hhi)) hcall
  refine ⟨_, exec_rts_of_afterPushWord (s.nextPc len) target hmem hlo hhi, rfl, rfl, ?_, ?_, ?_, ?_⟩ <;>
    simp [State.afterPushWord]

end Sys2Proof.Machine
end

section
/-! CERTIFICATES. The read-modify-write instructions: NEG, INC and DEC, COM and TST, the shifts and rotates, CLR
(42_read_modify_write.md R160 to R172). -/

namespace Sys2Proof.Machine

/-! ### What the group shares -/

/-- An instruction whose words on memory, A and X are those of row `row` in their columns has the six forms of R160. -/
theorem rmwForms_of_rmwWords {mem : Ea → Instr} {onA onX : Instr} {row : Byte} {dir ix sp1 : Nat} (hrow : 0xF0 &&& row = 0)
    (hmem : ∀ ea, encode (mem ea) = rmwWords row ea ∧ (mem ea).length = ea.length)
    (hA : HasForm onA [0x40 + row] 1) (hX : HasForm onX [0x50 + row] 1)
    (hcycles : ∀ dd ff, (mem (.dir dd)).cycles = dir ∧ (mem (.ix1 ff)).cycles = dir ∧ (mem .ix).cycles = ix ∧
      (mem (.sp1 ff)).cycles = sp1) : RmwForms mem onA onX row dir ix sp1 := by
  have hcol : ∀ col : Byte, col &&& 0xF0 = col → col + row = col ||| row := fun _ h => column_add_row h hrow
  intro dd ff
  simpa [HasForm, hmem, hcycles dd ff, rmwWords, prebyte, Ea.length, hcol] using And.intro hA hX

/-- An instruction that is one operation on memory, on A and on X means what the operation computes from the old byte and flags. -/
theorem rmwMeans_of_op {mem : Ea → Instr} {onA onX : Instr} {op : Byte → Flags → Byte × Flags} {new : Byte → Flags → Byte}
    {flags : Byte → Flags → Flags} (hop : ∀ old f, op old f = (new old f, flags old f))
    (hexec : ∀ ea s, exec (mem ea) s = rmwMem op ea s ∧ exec onA s = rmwA op s ∧ exec onX s = rmwX op s) :
    RmwMeans mem onA onX new flags := by
  intro s
  obtain ⟨-, hA, hX⟩ := hexec .ix s
  refine ⟨fun ea h => ?mem, ?a, ?x⟩
  case mem =>
    rw [(hexec ea s).1, rmwMem_eq_next.mpr ⟨h, rfl⟩, hop]
    simp [State.advance, State.setCcr, State.setPc, State.nextPc]
  case a => rw [hA, rmwA, hop]; rfl
  case x => rw [hX, rmwX, hop]; rfl

/-! ### NEG, INC and DEC -/

/-- NEG as the subtraction from 0: $80 alone has no negative in the signed range, and 0 alone needs no borrow (R169). -/
theorem negOp_eq (old : Byte) (f : Flags) :
    negOp old f = (-old, { f with v := old == 0x80, n := (-old).msb, z := old == 0, c := old != 0 }) := by
  have hr : (0 : Byte) - old - (BitVec.ofBool false).zeroExtend 8 = -old := by simp
  have hv : outOfByte ((0 : Byte).toInt - old.toInt - false.toNat) = (old == 0x80) := by
    have hzero : (0 : Byte).toInt = 0 := rfl
    rw [Bool.eq_iff_iff, beq_iff_eq, outOfByte, decide_eq_true_iff, hzero, Bool.toNat_false, BitVec.toInt_eq_toNat_cond]
    bv_omega
  have hz : (-old == 0) = (old == 0) := by
    rw [Bool.eq_iff_iff, beq_iff_eq, beq_iff_eq, neg_eq_zero]
  have hc : decide ((0 : Byte).toNat < old.toNat + false.toNat) = (old != 0) := by
    rw [Bool.eq_iff_iff, bne_iff_ne, decide_eq_true_iff]
    bv_omega
  simp only [negOp, neg8, sub8_r, ofByte_sub8, differenceFlags, hr, hv, hz, hc]

/-- INC: the result is 0 from $FF alone (R166). -/
theorem incOp_eq (old : Byte) (f : Flags) :
    incOp old f = (old + 1, { f with v := old == 0x7F, n := (old + 1).msb, z := old == 0xFF }) := by
  have hr : BitVec.ofNat 8 (old.toNat + 1) = old + 1 := by bv_omega
  have hz : (old + 1 == 0) = (old == 0xFF) := by
    rw [Bool.eq_iff_iff, beq_iff_eq, beq_iff_eq]; bv_omega
  simp only [incOp, inc8, Flags.ofStep, hr, hz]

/-- DEC: the result is 0 from 1 alone (R165). -/
theorem decOp_eq (old : Byte) (f : Flags) :
    decOp old f = (old - 1, { f with v := old == 0x80, n := (old - 1).msb, z := old == 1 }) := by
  have hr : BitVec.ofNat 8 (old.toNat + 255) = old - 1 := by bv_omega
  have hz : (old - 1 == 0) = (old == 1) := by
    rw [Bool.eq_iff_iff, beq_iff_eq, beq_iff_eq, sub_eq_zero]
  simp only [decOp, dec8, Flags.ofStep, hr, hz]

/-- Settles O26, from the forms of rows 0, C and A and what the three operations compute. -/
theorem negIncDecMeans : Obligations.NegIncDecMeans := by
  unfold Obligations.NegIncDecMeans
  refine ⟨?_, rmwMeans_of_op negOp_eq fun _ _ => ⟨rfl, rfl, rfl⟩, ?_, ?_,
    rmwMeans_of_op incOp_eq fun _ _ => ⟨rfl, rfl, rfl⟩,
    rmwMeans_of_op decOp_eq fun _ _ => ⟨rfl, rfl, rfl⟩⟩ <;>
  exact rmwForms_of_rmwWords rfl (fun _ => ⟨rfl, rfl⟩) ⟨rfl, rfl, rfl⟩ ⟨rfl, rfl, rfl⟩ fun _ _ => ⟨rfl, rfl, rfl, rfl⟩

/-! ### The shifts and rotates -/

theorem shiftResult_r (r : Byte) (out : Bool) : (shiftResult r out).r = r := rfl

theorem ofByte_shiftResult (f : Flags) (r : Byte) (out : Bool) : f.ofByte (shiftResult r out) = shiftedFlags r out f := rfl

/-- A byte without bit n has nothing in common with the mask of that bit (R120). -/
theorem and_bitMask_eq_zero {m : Byte} {n : BitVec 3} (h : m.getLsbD n.toNat = false) : m &&& bitMask n = 0 := by
  apply BitVec.eq_of_getLsbD_eq
  intro k _
  rw [BitVec.getLsbD_and, getLsbD_bitMask]
  by_cases hnk : n.toNat = k
  · simp [← hnk, h]
  · simp [hnk]

/-- A carry that comes in at bit 0 of a byte shifted to the left meets no other bit. -/
theorem shiftLeft_or_carry (old : Byte) (c : Bool) :
    old <<< 1 ||| (BitVec.ofBool c).zeroExtend 8 = BitVec.ofNat 8 (old.toNat * 2 + c.toNat) := by
  have hdisjoint : old <<< 1 &&& (BitVec.ofBool c).zeroExtend 8 = 0 := by
    cases c
    case false => simp
    case true => exact and_bitMask_eq_zero (n := 0) (by simp)
  rw [← BitVec.add_eq_or_of_and_eq_zero _ _ hdisjoint]
  apply BitVec.eq_of_toNat_eq
  simp only [BitVec.toNat_add, BitVec.toNat_shiftLeft, toNat_carry, BitVec.toNat_ofNat, Nat.shiftLeft_eq]
  omega

/-- A carry that comes in at bit 7 of a byte shifted to the right meets no other bit. -/
theorem shiftRight_or_carry (old : Byte) (c : Bool) :
    old >>> 1 ||| (BitVec.ofBool c).zeroExtend 8 <<< 7 = BitVec.ofNat 8 (old.toNat / 2 + c.toNat * 128) := by
  have hdisjoint : old >>> 1 &&& (BitVec.ofBool c).zeroExtend 8 <<< 7 = 0 := by
    cases c
    case false => simp
    case true => exact and_bitMask_eq_zero (n := 7) (by simp)
  rw [← BitVec.add_eq_or_of_and_eq_zero _ _ hdisjoint]
  apply BitVec.eq_of_toNat_eq
  simp only [BitVec.toNat_add, BitVec.toNat_shiftLeft, BitVec.toNat_ushiftRight, toNat_carry, BitVec.toNat_ofNat, Nat.shiftLeft_eq,
    Nat.shiftRight_eq_div_pow]
  omega

/-- LSL (R161, R167). -/
theorem lslOp_eq (old : Byte) (f : Flags) : lslOp old f = (old <<< 1, shiftedFlags (old <<< 1) old.msb f) := by
  have hr : BitVec.ofNat 8 (old.toNat * 2) = old <<< 1 := by simpa using (shiftLeft_or_carry old false).symm
  simp only [lslOp, lsl8, hr, shiftResult_r, ofByte_shiftResult]

/-- ASR: the sign of the old byte comes in at bit 7 (R162). -/
theorem asrOp_eq (old : Byte) (f : Flags) :
    asrOp old f = (old.sshiftRight 1, shiftedFlags (old.sshiftRight 1) (old.getLsbD 0) f) := by
  have hr : BitVec.ofNat 8 (old.toNat / 2 + old.msb.toNat * 128) = old.sshiftRight 1 := by
    apply BitVec.eq_of_toNat_eq
    have hlt := old.isLt
    cases hmsb : old.msb
    case false =>
      rw [BitVec.sshiftRight_eq_of_msb_false hmsb]
      simp only [Bool.toNat_false, BitVec.toNat_ofNat, BitVec.toNat_ushiftRight, Nat.shiftRight_eq_div_pow]
      omega
    case true =>
      rw [BitVec.sshiftRight_eq_of_msb_true hmsb]
      simp only [Bool.toNat_true, BitVec.toNat_ofNat, BitVec.toNat_not, BitVec.toNat_ushiftRight, Nat.shiftRight_eq_div_pow]
      omega
  simp only [asrOp, asr8, hr, shiftResult_r, ofByte_shiftResult]

/-- LSR (R168). -/
theorem lsrOp_eq (old : Byte) (f : Flags) : lsrOp old f = (old >>> 1, shiftedFlags (old >>> 1) (old.getLsbD 0) f) := by
  have hr : BitVec.ofNat 8 (old.toNat / 2) = old >>> 1 := by simpa using (shiftRight_or_carry old false).symm
  simp only [lsrOp, lsr8, hr, shiftResult_r, ofByte_shiftResult]

/-- ROL (R170). -/
theorem rolOp_eq (old : Byte) (f : Flags) :
    rolOp old f = (old <<< 1 ||| (BitVec.ofBool f.c).zeroExtend 8,
      shiftedFlags (old <<< 1 ||| (BitVec.ofBool f.c).zeroExtend 8) old.msb f) := by
  simp only [rolOp, rol8, shiftLeft_or_carry, shiftResult_r, ofByte_shiftResult]

/-- ROR (R171). -/
theorem rorOp_eq (old : Byte) (f : Flags) :
    rorOp old f = (old >>> 1 ||| (BitVec.ofBool f.c).zeroExtend 8 <<< 7,
      shiftedFlags (old >>> 1 ||| (BitVec.ofBool f.c).zeroExtend 8 <<< 7) (old.getLsbD 0) f) := by
  simp only [rorOp, ror8, shiftRight_or_carry, shiftResult_r, ofByte_shiftResult]

/-- Settles O28, from the forms of rows 4 and 6 to 9 and what the five operations compute; ASL is LSL (R161). -/
theorem shiftMeans : Obligations.ShiftMeans := by
  unfold Obligations.ShiftMeans
  refine ⟨⟨?_, ?_, ?_, ?_, ?_, ?_⟩,
    rmwMeans_of_op lslOp_eq fun _ _ => ⟨rfl, rfl, rfl⟩,
    rmwMeans_of_op lslOp_eq fun _ _ => ⟨rfl, rfl, rfl⟩,
    rmwMeans_of_op asrOp_eq fun _ _ => ⟨rfl, rfl, rfl⟩,
    rmwMeans_of_op lsrOp_eq fun _ _ => ⟨rfl, rfl, rfl⟩,
    rmwMeans_of_op rolOp_eq fun _ _ => ⟨rfl, rfl, rfl⟩,
    rmwMeans_of_op rorOp_eq fun _ _ => ⟨rfl, rfl, rfl⟩⟩ <;>
  exact rmwForms_of_rmwWords rfl (fun _ => ⟨rfl, rfl⟩) ⟨rfl, rfl, rfl⟩ ⟨rfl, rfl, rfl⟩ fun _ _ => ⟨rfl, rfl, rfl, rfl⟩

/-! ### COM and TST -/

/-- COM: the complement is the distance to $FF, so its sign is the other one and it is 0 for $FF alone (R164). -/
theorem comOp_eq (old : Byte) (f : Flags) :
    comOp old f = (0xFF - old, { f with v := false, n := !old.msb, z := old == 0xFF, c := true }) := by
  have hr : ~~~ old = 0xFF - old := (BitVec.allOnes_sub_eq_not old).symm
  have hn : (0xFF - old).msb = !old.msb := by rw [← hr]; simp
  have hz : (0xFF - old == 0) = (old == 0xFF) := by
    rw [Bool.eq_iff_iff, beq_iff_eq, beq_iff_eq, sub_eq_zero, eq_comm]
  simp only [comOp, Flags.ofCom, Flags.logic8, hr, hn, hz]

/-- Settles O27: COM is one operation in six forms; TST reads its operand and writes flags alone. -/
theorem comTstMeans : Obligations.ComTstMeans := by
  unfold Obligations.ComTstMeans
  refine ⟨?_, rmwMeans_of_op comOp_eq fun _ _ => ⟨rfl, rfl, rfl⟩, ?_, fun s => ⟨fun ea h => ?tst, rfl, rfl⟩⟩
  case tst =>
    show execTst ea s = _
    rw [execTst, readByte_of_present h]
    simp [testedFlags, Flags.logic8, valueFlags, State.advance, State.setCcr, State.setPc, State.nextPc]
  all_goals
    exact rmwForms_of_rmwWords rfl (fun _ => ⟨rfl, rfl⟩) ⟨rfl, rfl, rfl⟩ ⟨rfl, rfl, rfl⟩ fun _ _ => ⟨rfl, rfl, rfl, rfl⟩

/-! ### CLR -/

/-- Settles O29: on memory CLR is a store of 0, which does not read (D15, log 25). -/
theorem clrMeans : Obligations.ClrMeans := by
  unfold Obligations.ClrMeans
  refine ⟨⟨?forms, rfl, rfl, rfl⟩, fun s => ⟨fun ea h => ?mem, rfl, rfl, rfl⟩⟩
  case forms =>
    exact rmwForms_of_rmwWords rfl (fun _ => ⟨rfl, rfl⟩) ⟨rfl, rfl, rfl⟩ ⟨rfl, rfl, rfl⟩ fun _ _ => ⟨rfl, rfl, rfl, rfl⟩
  case mem =>
    show storeByte ea 0 s = _
    rw [storeByte_eq_next.mpr ⟨h, rfl⟩]
    simp [Flags.logic8, State.advance, State.setCcr, State.setPc, State.nextPc]

end Sys2Proof.Machine
end

section
/-! CERTIFICATES. The other instructions of the read-modify-write columns: CBEQ, DBNZ, MOV, MUL, DIV, DAA, NSA
(43_rmw_column_other.md R180, R182 to R184, R186 to R188). -/

namespace Sys2Proof.Machine

/-- A branch writes PC alone: the address after the instruction, plus the signed offset where it is taken (R94; D7, log 21). -/
theorem branch_eq (s : State) (len : Nat) (rr : Byte) (cond : Bool) :
    s.branch len rr cond = { s with
      pc := if cond then s.pc + BitVec.ofNat 16 len + rr.signExtend 16 else s.pc + BitVec.ofNat 16 len } := rfl

theorem advance_eq (s : State) (len : Nat) : s.advance len = { s with pc := s.pc + BitVec.ofNat 16 len } := rfl

/-- The step of H:X counts in all 16 bits (D25, log 27). -/
theorem incHx_eq (s : State) : s.incHx = { s with h := hiByte (s.hx + 1), x := loByte (s.hx + 1) } := rfl

/-! ### CBEQ -/

@[simp] theorem cbeqStep_pc (s : State) (form : CbeqForm) : (s.cbeqStep form).pc = s.pc := by
  cases form <;> rfl

/-- CBEQ on memory: one read from the address the old H:X gives, the step of H:X, and the branch (R180; D25, D26, log 27). -/
theorem execCbeq_of_present {form : CbeqForm} {s : State} (h : s.present (s.cbeqEa form) = true) (rr : Byte) :
    execCbeq form rr s = .next { (s.afterRead (s.cbeqEa form)).cbeqStep form with
      pc := if s.a = s.byteAt (s.cbeqEa form) then s.pc + BitVec.ofNat 16 form.length + rr.signExtend 16
        else s.pc + BitVec.ofNat 16 form.length } := by
  simp [execCbeq, readByte_of_present h, branch_eq]

/-- Settles O30: the four forms on memory are one read and one branch, the indexed ones with the step of H:X between. -/
theorem cbeqMeans : Obligations.CbeqMeans := by
  unfold Obligations.CbeqMeans
  intro s ii dd ff rr
  refine ⟨⟨?_, ?_, ?_, ?_, ?_, ?_⟩, ?a, ?x, fun h => ?dir, fun h => ?sp1, fun h => ?ix1p, fun h => ?ixp⟩
  case a =>
    show execCbeqa ii rr s = _
    simp [execCbeqa, branch_eq]
  case x =>
    show execCbeqx ii rr s = _
    simp [execCbeqx, branch_eq]
  case dir => exact execCbeq_of_present (form := .dir dd) h rr
  case sp1 => exact execCbeq_of_present (form := .sp1 ff) h rr
  case ix1p =>
    refine (execCbeq_of_present (form := .ix1p ff) h rr).trans ?_
    simp only [State.cbeqStep, incHx_eq, State.afterRead_hx]
    rfl
  case ixp =>
    refine (execCbeq_of_present (form := .ixp) h rr).trans ?_
    simp only [State.cbeqStep, incHx_eq, State.afterRead_hx]
    rfl
  all_goals exact ⟨rfl, rfl, rfl⟩

/-! ### DBNZ -/

/-- The counter is decremented modulo 256 (R183). -/
theorem countDown_eq_sub_one (old : Byte) : countDown old = old - 1 := by
  rw [countDown]
  bv_omega

/-- The counter becomes 0 from 1 alone, so that is where the branch is not taken (R183). -/
theorem branch_countDown (s : State) (len : Nat) (rr old : Byte) :
    s.branch len rr (countDown old != 0) = { s with
      pc := if old = 1 then s.pc + BitVec.ofNat 16 len else s.pc + BitVec.ofNat 16 len + rr.signExtend 16 } := by
  have hzero : (countDown old != 0) = !decide (old = 1) := by
    rw [countDown_eq_sub_one, Bool.eq_iff_iff, bne_iff_ne, ne_eq, sub_eq_zero]
    simp
  rw [branch_eq, hzero]
  simp

/-- DBNZ on memory: one read and one write, then the branch (R183). -/
theorem execDbnz_of_present {ea : Ea} {s : State} (h : s.present (s.ea ea) = true) (rr : Byte) :
    execDbnz ea rr s = .next
      { (s.afterRead (s.ea ea)).afterWrite (s.ea ea) (s.byteAt (s.ea ea) - 1) with
        pc := if s.byteAt (s.ea ea) = 1 then s.pc + BitVec.ofNat 16 (ea.length + 1)
          else s.pc + BitVec.ofNat 16 (ea.length + 1) + rr.signExtend 16 } := by
  have hwrite : (s.afterRead (s.ea ea)).present (s.ea ea) = true := by rwa [State.afterRead_present]
  rw [execDbnz, readByte_of_present h, writeByte_of_present hwrite, branch_countDown, countDown_eq_sub_one]
  simp

/-- Settles O31: in every form the counter is decremented and the branch is taken unless it was 1. -/
theorem dbnzMeans : Obligations.DbnzMeans := by
  unfold Obligations.DbnzMeans
  intro s rr
  refine ⟨⟨?_, ?_, ?_, fun b => ⟨?_, ?_, ?_⟩⟩, ?a, ?x, fun ea h => execDbnz_of_present h rr⟩
  case a =>
    show execDbnza rr s = _
    rw [execDbnza, branch_countDown, countDown_eq_sub_one]
    rfl
  case x =>
    show execDbnzx rr s = _
    rw [execDbnzx, branch_countDown, countDown_eq_sub_one]
    rfl
  all_goals exact ⟨rfl, rfl, rfl⟩

/-! ### MOV -/

theorem movStep_pc (s : State) (form : MovForm) : (s.movStep form).pc = s.pc := by
  cases form <;> rfl

theorem movStep_setCcr (s : State) (form : MovForm) (f : Flags) :
    (s.setCcr f).movStep form = (s.movStep form).setCcr f := by
  cases form <;> rfl

/-- What MOV does in a state that has read the source: the write, the flags of the byte, the step of H:X, the next instruction
(R186). -/
theorem movStore_of_present {u : State} {addr : Word} (h : u.present addr = true) (form : MovForm) (v : Byte) :
    (u.writeByte addr v fun t => .next (((t.setCcr (t.ccr.logic8 v)).movStep form).advance form.length)) =
      .next { (u.afterWrite addr v).movStep form with
        ccr := valueFlags v u.ccr, pc := u.pc + BitVec.ofNat 16 form.length } := by
  rw [writeByte_of_present h, movStep_setCcr, advance_eq, State.setCcr_pc, movStep_pc]
  simp [State.setCcr, Flags.logic8, valueFlags]

/-- MOV from memory: one read, and then what MOV does with the byte read (R186). -/
theorem execMov_of_read {form : MovForm} {s : State} {addr : Word} (hform : s.movSource form = s.readByte addr)
    (hsrc : s.present addr = true) (hdst : s.present (s.movDest form) = true) :
    execMov form s = .next { ((s.afterRead addr).afterWrite (s.movDest form) (s.byteAt addr)).movStep form with
      ccr := valueFlags (s.byteAt addr) s.ccr, pc := s.pc + BitVec.ofNat 16 form.length } := by
  have hwrite : (s.afterRead addr).present (s.movDest form) = true := by rwa [State.afterRead_present]
  rw [execMov, hform, readByte_of_present hsrc, movStore_of_present hwrite, State.afterRead_ccr, State.afterRead_pc]

/-- Settles O35: the source is read where it is in memory, then the destination is written, both addressed from the old H:X. -/
theorem movMeans : Obligations.MovMeans := by
  unfold Obligations.MovMeans
  intro s src dst ii
  have hhx : wordOf s.h s.x = s.hx := rfl
  rw [hhx]
  refine ⟨⟨?_, ?_, ?_, ?_⟩, fun hdst => ?imd, fun hsrc hdst => ?dd, fun hsrc hdst => ?dixp, fun hsrc hdst => ?ixpd⟩
  case imd => exact movStore_of_present hdst (.imd ii dst) ii
  case dd => exact execMov_of_read (form := .dd src dst) rfl hsrc hdst
  case dixp =>
    refine (execMov_of_read (form := .dixp src) rfl hsrc hdst).trans ?_
    simp only [State.movStep, incHx_eq, State.afterWrite_hx, State.afterRead_hx]
    rfl
  case ixpd =>
    refine (execMov_of_read (form := .ixpd dst) rfl hsrc hdst).trans ?_
    simp only [State.movStep, incHx_eq, State.afterWrite_hx, State.afterRead_hx]
    rfl
  all_goals exact ⟨rfl, rfl, rfl⟩

/-! ### MUL and DIV -/

theorem hiByte_ofNat {n : Nat} (h : n < 65536) : hiByte (BitVec.ofNat 16 n) = BitVec.ofNat 8 (n / 256) := by
  apply BitVec.eq_of_toNat_eq
  simp only [hiByte, BitVec.extractLsb'_toNat, BitVec.toNat_ofNat, Nat.shiftRight_eq_div_pow]
  omega

theorem loByte_ofNat (n : Nat) : loByte (BitVec.ofNat 16 n) = BitVec.ofNat 8 (n % 256) := by
  apply BitVec.eq_of_toNat_eq
  simp only [loByte, BitVec.extractLsb'_toNat, BitVec.toNat_ofNat, Nat.shiftRight_eq_div_pow]
  omega

/-- The product of two bytes needs no more than 16 bits (R187). -/
theorem byte_mul_lt (x a : Byte) : x.toNat * a.toNat < 65536 :=
  Nat.mul_lt_mul'' x.isLt a.isLt

/-- Settles O36: X and A are the two bytes of the product. -/
theorem mulMeans : Obligations.MulMeans := by
  unfold Obligations.MulMeans
  refine ⟨⟨rfl, rfl, rfl⟩, fun s => ?_⟩
  have hlt := byte_mul_lt s.x s.a
  refine ⟨BitVec.ofNat 16 (s.x.toNat * s.a.toNat), (BitVec.toNat_ofNat _ _).trans (Nat.mod_eq_of_lt hlt), ?_⟩
  rw [hiByte_ofNat hlt, loByte_ofNat]
  rfl

/-- The quotient fits exactly where the high byte of the dividend is less than the divisor, which then is not 0 (R184). -/
theorem divFits_eq (h x : Byte) : divFits h x = decide (h.toNat < x.toNat) := by
  rw [divFits, Bool.eq_iff_iff, Bool.and_eq_true, bne_iff_ne, decide_eq_true_iff, and_iff_right_iff_imp]
  rintro hlt rfl
  exact absurd hlt (Nat.not_lt_zero _)

/-- A quotient that fits is not cut to 8 bits (R184). -/
theorem toNat_divQuotient {h x : Byte} (a : Byte) (hlt : h.toNat < x.toNat) :
    (divQuotient h a x).toNat = (h.toNat * 256 + a.toNat) / x.toNat := by
  have ha := a.isLt
  exact (BitVec.toNat_ofNat _ _).trans (Nat.mod_eq_of_lt (Nat.div_lt_of_lt_mul (by omega)))

/-- Nor is a remainder, which is less than the divisor (R184). -/
theorem toNat_divRemainder {h x : Byte} (a : Byte) (hlt : h.toNat < x.toNat) :
    (divRemainder h a x).toNat = (h.toNat * 256 + a.toNat) % x.toNat :=
  (BitVec.toNat_ofNat _ _).trans (Nat.mod_eq_of_lt ((Nat.mod_lt _ (Nat.zero_lt_of_lt hlt)).trans x.isLt))

theorem exec_div_of_lt {s : State} (hlt : s.h.toNat < s.x.toNat) :
    exec .div s = .next { s with
      a := divQuotient s.h s.a s.x, h := divRemainder s.h s.a s.x
      ccr := { s.ccr with z := divQuotient s.h s.a s.x == 0, c := false }, pc := s.pc + 1 } := by
  show execDiv s = _
  rw [execDiv, inherent, divFits_eq, if_pos (decide_eq_true hlt)]
  rfl

theorem exec_div_of_le {s : State} (hle : s.x.toNat ≤ s.h.toNat) :
    exec .div s = .next { s with
      a := Config.freeByte s.draws, h := Config.freeByte (s.draws + 1)
      ccr := { s.ccr with z := Config.freeBit (s.draws + 2), c := true }, pc := s.pc + 1, draws := s.draws + 3 } := by
  show execDiv s = _
  rw [execDiv, inherent, divFits_eq, if_neg (by simpa using hle)]
  rfl

/-- Settles O37: where the quotient fits, quotient and remainder are those of the division of numbers. -/
theorem divMeans : Obligations.DivMeans := by
  unfold Obligations.DivMeans
  refine ⟨⟨rfl, rfl, rfl⟩, fun s => ⟨fun hlt => ⟨_, _, ?_, ?_, exec_div_of_lt hlt⟩,
    fun hle => ⟨_, _, _, exec_div_of_le hle⟩⟩⟩
  · rw [toNat_divQuotient s.a hlt, toNat_divRemainder s.a hlt]
    exact (Nat.div_add_mod' _ _).symm
  · rw [toNat_divRemainder s.a hlt]
    exact Nat.mod_lt _ (Nat.zero_lt_of_lt hlt)

/-! ### DAA -/

/-- When a row of the table covers C, H and the two digits of A (R182). -/
theorem DaaRow.covers_iff {row : DaaRow} {c h : Bool} {a : Byte} :
    row.covers c h a = true ↔ c = row.c ∧ (row.hiMin ≤ a.toNat / 16 ∧ a.toNat / 16 ≤ row.hiMax) ∧ h = row.h ∧
      row.loMin ≤ a.toNat % 16 ∧ a.toNat % 16 ≤ row.loMax := by
  rw [DaaRow.covers]
  simp only [Bool.and_eq_true, beq_iff_eq, decide_eq_true_iff]
  rw [eq_comm (a := c), eq_comm (a := h)]
  tauto

/-- No two rows of the table cover one state (R182). -/
theorem daaTable_eq_of_covers {row row' : DaaRow} {c h : Bool} {a : Byte} (hrow : row ∈ daaTable) (hrow' : row' ∈ daaTable)
    (hcov : row.covers c h a = true) (hcov' : row'.covers c h a = true) : row = row' := by
  have hdisjoint : ∀ row ∈ daaTable, ∀ row' ∈ daaTable, row = row' ∨ row.c ≠ row'.c ∨ row.h ≠ row'.h ∨
      row.hiMax < row'.hiMin ∨ row'.hiMax < row.hiMin ∨ row.loMax < row'.loMin ∨ row'.loMax < row.loMin := by decide
  obtain ⟨hc, hhi, hh, hlo⟩ := DaaRow.covers_iff.mp hcov
  obtain ⟨hc', hhi', hh', hlo'⟩ := DaaRow.covers_iff.mp hcov'
  rcases hdisjoint row hrow row' hrow' with heq | hne | hne | hranges
  · exact heq
  · exact absurd (hc.symm.trans hc') hne
  · exact absurd (hh.symm.trans hh') hne
  · omega

/-- A row that covers a state is the row found for it. -/
theorem daaRow_eq_some {row : DaaRow} {c h : Bool} {a : Byte} (hrow : row ∈ daaTable) (hcov : row.covers c h a = true) :
    daaRow c h a = some row := by
  have hfound : (daaRow c h a).isSome = true := List.find?_isSome.mpr ⟨row, hrow, hcov⟩
  obtain ⟨row', hfind⟩ := Option.isSome_iff_exists.mp hfound
  have hcov' : row'.covers c h a = true := List.find?_some (p := fun row : DaaRow => row.covers c h a) hfind
  rw [hfind, daaTable_eq_of_covers hrow (List.mem_of_find?_eq_some hfind) hcov hcov']

/-- The table answers the state C, H, A with this correction and this new C (R182). -/
def DaaAnswers (c h : Bool) (a correction : Byte) (newC : Bool) : Prop :=
  ∃ row ∈ daaTable, row.covers c h a = true ∧ correction = row.correction ∧ newC = row.newC

/-- DAA where the table has an answer: V alone is a draw (R182; U1). -/
theorem exec_daa_of_answers {s : State} {correction : Byte} {newC : Bool}
    (h : DaaAnswers s.ccr.c s.ccr.h s.a correction newC) :
    exec .daa s = .next { s with
      a := s.a + correction
      ccr := { s.ccr with
        v := Config.freeBit s.draws, n := (s.a + correction).msb, z := s.a + correction == 0, c := newC }
      pc := s.pc + 1, draws := s.draws + 1 } := by
  obtain ⟨row, hrow, hcov, rfl, rfl⟩ := h
  show execDaa s = _
  rw [execDaa, inherent, daaRow_eq_some hrow hcov]
  rfl

/-- DAA where it has none: A, C and V are draws (R182; U3, D16, log 8). -/
theorem exec_daa_of_none {s : State} (h : daaRow s.ccr.c s.ccr.h s.a = none) :
    exec .daa s = .next { s with
      a := Config.freeByte s.draws
      ccr := { s.ccr with
        v := Config.freeBit (s.draws + 2), n := (Config.freeByte s.draws).msb, z := Config.freeByte s.draws == 0
        c := Config.freeBit (s.draws + 1) }
      pc := s.pc + 1, draws := s.draws + 3 } := by
  show execDaa s = _
  rw [execDaa, inherent, h]
  rfl

/-- How far the rows for a half carry, for a carry and for both reach (R182). -/
theorem daaTable_limits : ∀ row ∈ daaTable,
    (row.c = false → row.h = true → row.loMax ≤ 3) ∧ (row.c = true → row.h = false → row.hiMax ≤ 2) ∧
      (row.c = true → row.h = true → row.hiMax ≤ 3 ∧ row.loMax ≤ 3) := by decide

/-- Settles O39: the nine rows are those of the table, and in the other states no row covers C, H and A. -/
theorem daaOutsideTable : Obligations.DaaOutsideTable := by
  unfold Obligations.DaaOutsideTable
  refine ⟨⟨rfl, rfl, rfl⟩, fun s correction c h => ⟨_, exec_daa_of_answers ?answer⟩,
    fun s h => ⟨_, _, _, exec_daa_of_none ?none⟩⟩
  case answer =>
    have hhi : s.a.toNat / 16 ≤ 15 := Nat.le_of_lt_succ (Nat.div_lt_of_lt_mul s.a.isLt)
    have hlo : s.a.toNat % 16 ≤ 15 := Nat.le_of_lt_succ (Nat.mod_lt _ (by decide))
    simpa [DaaAnswers, daaTable, DaaRow.covers_iff, and_assoc, hhi, hlo] using h
  case none =>
    rw [daaRow, List.find?_eq_none]
    intro row hrow hcov
    obtain ⟨hc, hhi, hh, hlo⟩ := DaaRow.covers_iff.mp hcov
    obtain ⟨hhalf, hcarry, hboth⟩ := daaTable_limits row hrow
    rcases h with ⟨hc', hh', hout⟩ | ⟨hc', hh', hout⟩ | ⟨hc', hh', hout⟩
    · have hmax := hhalf (hc.symm.trans hc') (hh.symm.trans hh')
      omega
    · have hmax := hcarry (hc.symm.trans hc') (hh.symm.trans hh')
      omega
    · have hmax := hboth (hc.symm.trans hc') (hh.symm.trans hh')
      omega

/-- After a binary addition of BCD digits, with `lo` the sum of the low ones and the carry, and `hi` that of the high ones, the
low digit needs 6 more where `lo` is no digit, the high one where the decimal sum has three digits; and so the table says (R182). -/
theorem daaAnswers_of_digits {lo hi : Nat} (hlo : lo ≤ 19) (hhi : hi ≤ 18) :
    ∃ correction, DaaAnswers (decide (256 ≤ 16 * hi + lo)) (decide (16 ≤ lo)) (BitVec.ofNat 8 (16 * hi + lo)) correction
        (decide (100 ≤ 10 * hi + lo)) ∧
      BitVec.ofNat 8 (16 * hi + lo) + correction =
        BitVec.ofNat 8 (16 * ((10 * hi + lo) / 10 % 10) + (10 * hi + lo) % 10) := by
  rcases Nat.lt_or_ge lo 10 with hlow | hlow <;> rcases Nat.lt_or_ge (10 * hi + lo) 100 with hhigh | hhigh
  case' inl.inl => refine ⟨0x00, ?_, by bv_omega⟩
  case' inl.inr => refine ⟨0x60, ?_, by bv_omega⟩
  case' inr.inl => refine ⟨0x06, ?_, by bv_omega⟩
  case' inr.inr => refine ⟨0x66, ?_, by bv_omega⟩
  all_goals
    simp only [DaaAnswers, daaTable, DaaRow.covers_iff, List.mem_cons, List.not_mem_nil, or_false, exists_eq_or_imp,
      exists_eq_left, decide_eq_true_eq, decide_eq_false_iff_not, BitVec.toNat_ofNat, BitVec.ofNat_eq_ofNat, BitVec.reduceEq,
      true_and, false_and, and_false]
    omega

/-- The number a byte of two decimal digits holds. -/
theorem toNat_bcd {d1 d0 : Nat} (h1 : d1 < 10) (h0 : d0 < 10) : (BitVec.ofNat 8 (16 * d1 + d0)).toNat = 16 * d1 + d0 :=
  (BitVec.toNat_ofNat _ _).trans (Nat.mod_eq_of_lt (by omega))

/-- ADD and ADC of an immediate byte leave the sum in A and its flags (R13, R231, R232). -/
theorem add8_of_addition {s t : State} {ii : Byte} {carry : Bool}
    (h : exec (.add (.imm ii)) s = .next t ∧ carry = false ∨ exec (.adc (.imm ii)) s = .next t ∧ carry = s.ccr.c) :
    t.a = (add8 s.a ii carry).r ∧ t.ccr = s.ccr.ofAdd (add8 s.a ii carry) := by
  rcases h with ⟨h, rfl⟩ | ⟨h, rfl⟩ <;> cases h <;> exact ⟨rfl, rfl⟩

/-- Settles O38: the addition leaves in C, H and A a state for which the table has the correction of both digits. -/
theorem daaAfterBcdAddition : Obligations.DaaAfterBcdAddition := by
  unfold Obligations.DaaAfterBcdAddition
  refine ⟨⟨rfl, rfl, rfl⟩, fun s t d1 d0 e1 e0 carry ii hd1 hd0 he1 he0 hs hii hadd => ?_⟩
  obtain ⟨lo, hlo⟩ : ∃ lo, lo = d0 + e0 + carry.toNat := ⟨_, rfl⟩
  obtain ⟨hi, hhi⟩ : ∃ hi, hi = d1 + e1 := ⟨_, rfl⟩
  have hcarry := Bool.toNat_le carry
  have hsnat : s.a.toNat = 16 * d1 + d0 := hs ▸ toNat_bcd hd1 hd0
  have hinat : ii.toNat = 16 * e1 + e0 := hii ▸ toNat_bcd he1 he0
  have hn : s.a.toNat + ii.toNat + carry.toNat = 16 * hi + lo := by omega
  have hl : s.a.toNat % 16 + ii.toNat % 16 + carry.toNat = lo := by omega
  obtain ⟨ha, hccr⟩ := add8_of_addition hadd
  have hta : t.a = BitVec.ofNat 8 (16 * hi + lo) := by rw [ha, ← hn]; rfl
  have htc : t.ccr.c = decide (256 ≤ 16 * hi + lo) := by rw [hccr, ← hn]; rfl
  have hth : t.ccr.h = decide (16 ≤ lo) := by rw [hccr, ← hl]; rfl
  obtain ⟨correction, hanswer, hdigits⟩ := daaAnswers_of_digits (lo := lo) (hi := hi) (by omega) (by omega)
  rw [← hta, ← htc, ← hth] at hanswer
  rw [← hta] at hdigits
  have hsum : 10 * d1 + d0 + (10 * e1 + e0) + carry.toNat = 10 * hi + lo := by omega
  exact ⟨_, 10 * hi + lo, t.a + correction, hsum.symm, hdigits, exec_daa_of_answers hanswer⟩

/-! ### NSA -/

/-- The nibbles swapped are the byte rotated by four (R188). -/
theorem nibbles_swapped_eq_rotateLeft (a : Byte) : a.extractLsb' 0 4 ++ a.extractLsb' 4 4 = a.rotateLeft 4 := by
  revert a
  decide

theorem exec_nsa (s : State) : exec .nsa s = .next { s with a := s.a.rotateLeft 4, pc := s.pc + 1 } := by
  show execNsa s = _
  rw [execNsa, inherent, nibbles_swapped_eq_rotateLeft]
  rfl

/-- Two rotations by four go once round the byte. -/
theorem rotateLeft_four_twice (a : Byte) : (a.rotateLeft 4).rotateLeft 4 = a := by
  revert a
  decide

/-- Settles O40: the nibbles swapped are a rotation by four, and two of those are none. -/
theorem nsaMeans : Obligations.NsaMeans := by
  unfold Obligations.NsaMeans
  refine ⟨⟨⟨rfl, rfl, rfl⟩, exec_nsa⟩, fun s t u h1 h2 => ?_⟩
  rw [exec_nsa] at h1
  cases h1
  rw [exec_nsa] at h2
  cases h2
  have hpc : s.pc + 1 + 1 = s.pc + 2 := add_assoc s.pc 1 1
  simp only [rotateLeft_four_twice, hpc]

end Sys2Proof.Machine
end

section
/-! CERTIFICATES. The inherent instructions that change registers, flags, the mask or the run state (44_control.md R200 to R202, R209,
R212 to R214, R217, R219 to R222, R275, R276), and AIS and AIX (R233, R234). -/

namespace Sys2Proof.Machine

/-! ### Inherent instructions -/

/-- An instruction of one word that changes the state by `f` and goes on to the next one means `f`, where `f` leaves PC alone (R10,
R83). -/
theorem inherentMeans_of_inherent {i : Instr} {op : Byte} {cycles : Nat} {f : State → State} (hform : HasForm i [op] cycles)
    (hpc : ∀ s, (f s).pc = s.pc) (hexec : ∀ s, exec i s = inherent f s) : InherentMeans i op cycles f := by
  refine ⟨hform, fun s => ?_⟩
  rw [hexec, inherent, advance_eq, hpc]
  rfl

/-- Settles O41: CLC and SEC write C alone, and NOP nothing. -/
theorem carryAndNop : Obligations.CarryAndNop := by
  unfold Obligations.CarryAndNop
  refine ⟨?clc, ?sec, ?nop⟩
  all_goals exact inherentMeans_of_inherent ⟨rfl, rfl, rfl⟩ (fun _ => rfl) fun _ => rfl

/-- Settles O45: each writes I, and beside it the mask history (CLI, SEI) or the run state (STOP, WAIT). -/
theorem maskAndLowPower : Obligations.MaskAndLowPower := by
  unfold Obligations.MaskAndLowPower
  refine ⟨?cli, ?sei, ?stop, ?wait⟩
  all_goals exact inherentMeans_of_inherent ⟨rfl, rfl, rfl⟩ (fun _ => rfl) fun _ => rfl

/-! ### Register transfers -/

/-- RSP sets the low byte of SP, and clears the high one unless the parameter keeps it (R209, log 3). -/
theorem rspValue_eq (keepsHigh : Bool) (sp : Word) : rspValue keepsHigh sp = if keepsHigh then sp ||| 0x00FF else 0x00FF := by
  cases keepsHigh with
  | false => simp [rspValue, wordOf]
  | true =>
    obtain ⟨hi, lo, rfl⟩ := exists_eq_wordOf sp
    have hhi : hi ||| 0 = hi := BitVec.or_zero
    have hlo : lo ||| 0xFF = 0xFF := BitVec.or_allOnes
    calc rspValue true (wordOf hi lo) = hi ++ (0xFF : Byte) := by rw [rspValue, if_pos rfl, hiByte_wordOf, wordOf]
      _ = (hi ||| 0) ++ (lo ||| 0xFF) := by rw [hhi, hlo]
      _ = wordOf hi lo ||| 0x00FF := BitVec.or_append.symm

/-- Settles O43: each transfer writes the register it names; AIS and AIX add the signed byte. -/
theorem registerTransfers : Obligations.RegisterTransfers := by
  unfold Obligations.RegisterTransfers
  refine ⟨?tax, ?txa, ?tsx, ?txs, ?rsp, fun ii s => ⟨⟨⟨rfl, rfl, rfl⟩, rfl, rfl, rfl⟩, rfl, rfl⟩⟩
  case rsp =>
    exact inherentMeans_of_inherent ⟨rfl, rfl, rfl⟩ (fun _ => rfl) fun s =>
      congrArg (fun sp => inherent (·.setSp sp) s) (rspValue_eq s.cfg.rspKeepsHigh s.sp)
  all_goals exact inherentMeans_of_inherent ⟨rfl, rfl, rfl⟩ (fun _ => rfl) fun _ => rfl

end Sys2Proof.Machine
end

section
/-! CERTIFICATES. The stack instructions (44_control.md R203 to R208, R211), and SWI and RTI with the frame they share (R210, R215, R266,
R267, R270). -/

namespace Sys2Proof.Machine

/-! ### Reads and pulls -/

/-- A read draws one free value or none (R60). -/
theorem afterRead_eq_drew (s : State) (addr : Word) : s.afterRead addr = s.drew (if s.kind addr = .device then 1 else 0) := by
  rw [State.afterRead]
  split <;> rfl

/-- A read and a change of SP do not meet. -/
theorem setSp_afterRead (s : State) (sp addr : Word) : (s.setSp sp).afterRead addr = (s.afterRead addr).setSp sp := by
  rw [afterRead_eq_drew, afterRead_eq_drew]
  rfl

/-- Nor do a read and a change of the flags. -/
theorem setCcr_afterRead (s : State) (f : Flags) (addr : Word) : (s.setCcr f).afterRead addr = (s.afterRead addr).setCcr f := by
  rw [afterRead_eq_drew, afterRead_eq_drew]
  rfl

section
variable {s : State}

theorem pull_of_present (h : s.present (s.sp + 1) = true) (k : Byte → State → Out) :
    s.pull k = k (s.byteAt (s.sp + 1)) ((s.afterRead (s.sp + 1)).setSp (s.sp + 1)) := by
  rw [State.pull, readByte_of_present (by rwa [State.setSp_present]), setSp_afterRead, State.setSp_byteAt]

/-- An address pulled, the high byte first (R211). -/
theorem pullWord_of_present (hhi : s.present (s.sp + 1) = true) (hlo : s.present (s.sp + 2) = true) (k : Word → State → Out) :
    s.pullWord k = k (wordOf (s.byteAt (s.sp + 1)) ((s.afterRead (s.sp + 1)).byteAt (s.sp + 2)))
      (((s.afterRead (s.sp + 1)).afterRead (s.sp + 2)).setSp (s.sp + 2)) := by
  have hsp : s.sp + 1 + 1 = s.sp + 2 := add_assoc s.sp 1 1
  have hlo' : ((s.afterRead (s.sp + 1)).setSp (s.sp + 1)).present (s.sp + 1 + 1) = true := by
    rwa [State.setSp_present, State.afterRead_present, hsp]
  rw [State.pullWord, pull_of_present hhi, pull_of_present hlo', State.setSp_sp, hsp, setSp_afterRead, State.setSp_byteAt]
  rfl

/-! ### The pushes, the pulls and RTS -/

/-- A push instruction: one write at SP, then the step of SP (R203 to R205). -/
theorem push_advance_of_present (h : s.present s.sp = true) (v : Byte) :
    (s.push v fun t => .next (t.advance 1)) = .next { s.afterWrite s.sp v with sp := s.sp - 1, pc := s.pc + 1 } := by
  simp [push_of_present h, advance_eq, State.setSp]

/-- Settles O42: every push and every pull is one access at the stack and one step of SP, and RTS is two pulls. -/
theorem stackInstructions : Obligations.StackInstructions := by
  unfold Obligations.StackInstructions
  refine ⟨⟨⟨rfl, rfl, rfl⟩, ⟨rfl, rfl, rfl⟩, ⟨rfl, rfl, rfl⟩, ⟨rfl, rfl, rfl⟩, ⟨rfl, rfl, rfl⟩, ⟨rfl, rfl, rfl⟩, rfl, rfl, rfl⟩,
    fun s => ⟨fun h => ?pushes, fun h => ?pulls, fun hhi hlo => ?rts⟩⟩
  case pushes => exact ⟨push_advance_of_present h s.a, push_advance_of_present h s.h, push_advance_of_present h s.x⟩
  case pulls =>
    have hpc : (s.afterRead (s.sp + 1)).pc = s.pc := State.afterRead_pc s _
    refine ⟨?pula, ?pulh, ?pulx⟩
    case pula => show execPula s = _; rw [execPula, pull_of_present h, ← hpc]; rfl
    case pulh => show execPulh s = _; rw [execPulh, pull_of_present h, ← hpc]; rfl
    case pulx => show execPulx s = _; rw [execPulx, pull_of_present h, ← hpc]; rfl
  case rts =>
    show execRts s = _
    rw [execRts, pullWord_of_present hhi hlo]
    rfl

/-! ### Taking an exception -/

/-- What holds at the five addresses from SP down, one by one. -/
theorem forall_lt_five_below {p : Word → Prop} {a : Word} (h : ∀ k, k < 5 → p (a - BitVec.ofNat 16 k)) :
    p a ∧ p (a - 1) ∧ p (a - 2) ∧ p (a - 3) ∧ p (a - 4) :=
  ⟨by simpa using h 0 (by decide), h 1 (by decide), h 2 (by decide), h 3 (by decide), h 4 (by decide)⟩

/-- The state after the five writes of an exception entry: PC, X, A and the CCR, from SP down (R266, R267). -/
def State.stackFrame (s : State) (ret : Word) : State :=
  ((((s.afterWrite s.sp (loByte ret)).afterWrite (s.sp - 1) (hiByte ret)).afterWrite (s.sp - 2) s.x).afterWrite
    (s.sp - 3) s.a).afterWrite (s.sp - 4) (s.ccr.toByte s.cfg.ccrBits65)

/-- The state after an exception entry: the frame, I set, PC from the vector (R266). -/
def State.entered (s : State) (ret vector : Word) : State :=
  ((((((s.stackFrame ret).afterRead vector).afterRead (vector + 1)).setSp (s.sp - 5)).setCcr { s.ccr with i := true }).setPc
    (wordOf ((s.stackFrame ret).byteAt vector) (((s.stackFrame ret).afterRead vector).byteAt (vector + 1)))).setRun .running

theorem setSp_setCcr_setPc_setRun_eq (sp target : Word) (f : Flags) (r : RunState) :
    (((s.setSp sp).setCcr f).setPc target).setRun r = { s with sp := sp, ccr := f, pc := target, run := r } := rfl

@[simp] theorem stackFrame_kind (ret addr : Word) : (s.stackFrame ret).kind addr = s.kind addr := by
  simp [State.stackFrame]

@[simp] theorem stackFrame_present (ret addr : Word) : (s.stackFrame ret).present addr = s.present addr := by
  simp [State.stackFrame]

/-- A push from a stack pointer just set. -/
theorem setSp_push {sp : Word} (h : s.present sp = true) (v : Byte) (k : State → Out) :
    (s.setSp sp).push v k = k ((s.afterWrite sp v).setSp (sp - 1)) := by
  rw [push_of_present (by rwa [State.setSp_sp, State.setSp_present]), State.setSp_sp, setSp_afterWrite]
  rfl

/-- The pushes of an exception entry write the frame and lower SP by five; the vector is read after them. -/
theorem takeException_of_present (hstack : ∀ k, k < 5 → s.present (s.sp - BitVec.ofNat 16 k) = true) (ret vector : Word) :
    s.takeException ret vector =
      (((s.stackFrame ret).setSp (s.sp - 5)).setCcr { s.ccr with i := true }).readWord vector fun target t =>
        .next ((t.setPc target).setRun .running) := by
  obtain ⟨h0, h1, h2, h3, h4⟩ := forall_lt_five_below (p := fun addr => s.present addr = true) hstack
  have hsp3 : s.sp - 2 - 1 = s.sp - 3 := sub_sub s.sp 2 1
  have hsp4 : s.sp - 3 - 1 = s.sp - 4 := sub_sub s.sp 3 1
  have hsp5 : s.sp - 4 - 1 = s.sp - 5 := sub_sub s.sp 4 1
  rw [State.takeException, pushWord_of_present h0 h1, setSp_push (by simpa only [State.afterWrite_present] using h2), hsp3,
    setSp_push (by simpa only [State.afterWrite_present] using h3), hsp4,
    setSp_push (by simpa only [State.afterWrite_present] using h4), hsp5]
  simp only [State.setSp_x, State.setSp_a, State.setSp_ccr, State.setSp_cfg, State.afterWrite_x, State.afterWrite_a,
    State.afterWrite_ccr, State.afterWrite_cfg]
  rfl

/-- The one state an exception entry with room on the stack can answer. -/
theorem takeException_eq_next_iff (hstack : ∀ k, k < 5 → s.present (s.sp - BitVec.ofNat 16 k) = true) {ret vector : Word}
    {t : State} :
    s.takeException ret vector = .next t ↔
      s.present vector = true ∧ s.present (vector + 1) = true ∧ t = s.entered ret vector := by
  rw [takeException_of_present hstack, readWord_eq_next, setCcr_afterRead, setSp_afterRead, setCcr_afterRead, setSp_afterRead,
    Host.Outcome.next.injEq, eq_comm (b := t)]
  simp only [State.setCcr_present, State.setSp_present, State.setCcr_byteAt, State.setSp_byteAt, stackFrame_present,
    State.entered]

/-- Memory after an exception entry on a RAM stack: the five bytes of the frame, and the others as before (R267). -/
theorem entered_peek (hmem : s.mem.wf = true) (hstack : ∀ k, k < 5 → s.kind (s.sp - BitVec.ofNat 16 k) = .ram)
    (ret vector addr : Word) :
    (s.entered ret vector).peek addr =
      if addr = s.sp - 4 then s.ccr.toByte s.cfg.ccrBits65 else if addr = s.sp - 3 then s.a
      else if addr = s.sp - 2 then s.x else if addr = s.sp - 1 then hiByte ret
      else if addr = s.sp then loByte ret else s.peek addr := by
  obtain ⟨h0, h1, h2, h3, h4⟩ := forall_lt_five_below (p := fun addr => s.kind addr = .ram) hstack
  have hw1 := State.afterWrite_wf s.sp (loByte ret) hmem
  have hw2 := State.afterWrite_wf (s.sp - 1) (hiByte ret) hw1
  have hw3 := State.afterWrite_wf (s.sp - 2) s.x hw2
  have hw4 := State.afterWrite_wf (s.sp - 3) s.a hw3
  simp only [State.entered, State.stackFrame, State.setRun_peek, State.setPc_peek, State.setCcr_peek, State.setSp_peek,
    State.afterRead_peek, afterWrite_peek_of_ram, State.afterWrite_kind, hmem, hw1, hw2, hw3, hw4, h0, h1, h2, h3, h4]

/-- The five bytes of the frame, each in its place: no write of the entry hits the address of another (R267). -/
theorem entered_frame (hmem : s.mem.wf = true) (hstack : ∀ k, k < 5 → s.kind (s.sp - BitVec.ofNat 16 k) = .ram)
    (ret vector : Word) :
    (s.entered ret vector).peek s.sp = loByte ret ∧ (s.entered ret vector).peek (s.sp - 1) = hiByte ret ∧
    (s.entered ret vector).peek (s.sp - 2) = s.x ∧ (s.entered ret vector).peek (s.sp - 3) = s.a ∧
    (s.entered ret vector).peek (s.sp - 4) = s.ccr.toByte s.cfg.ccrBits65 := by
  have hne : ∀ n : Word, n ≠ 0 → s.sp ≠ s.sp - n := fun n hn h => hn (sub_eq_self.mp h.symm)
  simp [entered_peek hmem hstack, hne]

/-- An entry on a RAM stack changes no byte outside its frame. -/
theorem entered_peek_of_outside (hmem : s.mem.wf = true) (hstack : ∀ k, k < 5 → s.kind (s.sp - BitVec.ofNat 16 k) = .ram)
    (ret vector : Word) {addr : Word} (hout : ∀ k, k < 5 → addr ≠ s.sp - BitVec.ofNat 16 k) :
    (s.entered ret vector).peek addr = s.peek addr := by
  obtain ⟨h0, h1, h2, h3, h4⟩ := forall_lt_five_below (p := (addr ≠ ·)) hout
  rw [entered_peek hmem hstack, if_neg h4, if_neg h3, if_neg h2, if_neg h1, if_neg h0]

theorem entered_kind (ret vector addr : Word) : (s.entered ret vector).kind addr = s.kind addr := by
  simp [State.entered]

theorem entered_h (ret vector : Word) : (s.entered ret vector).h = s.h := by
  simp [State.entered, State.stackFrame]

/-- What SWI on a RAM stack answers, if it answers (R215). -/
theorem eq_entered_of_swi {t : State} (hstack : ∀ k, k < 5 → s.kind (s.sp - BitVec.ofNat 16 k) = .ram)
    (h : exec .swi s = .next t) : t = s.entered (s.pc + 1) swiVector :=
  ((takeException_eq_next_iff fun k hk => present_of_memoryAt (.inl (hstack k hk))).mp h).2.2

end

/-- Settles O51: SWI is the entry with the address after it, and on a RAM stack no push hits the byte of another. -/
theorem swiEntry : Obligations.SwiEntry := by
  unfold Obligations.SwiEntry
  refine ⟨⟨rfl, rfl, rfl⟩, fun s t hstack hhi hlo ht => ?entry, fun s t hmem hstack h => ?frame⟩
  case entry =>
    obtain rfl : t = s.stackFrame (s.pc + 1) := ht
    have hswi : exec .swi s = .next (s.entered (s.pc + 1) 0xFFFC) := (takeException_eq_next_iff hstack).mpr ⟨hhi, hlo, rfl⟩
    rw [hswi, State.entered, setSp_setCcr_setPc_setRun_eq]
    rfl
  case frame =>
    obtain rfl := eq_entered_of_swi hstack h
    obtain ⟨hlo, hhi, hx, ha, hccr⟩ := entered_frame hmem hstack (s.pc + 1) swiVector
    exact ⟨hlo, hhi, hx, ha, hccr, rfl, fun addr hout => entered_peek_of_outside hmem hstack _ _ hout⟩

/-! ### The return from an exception -/

/-- Only a return that takes I from 1 to 0 counts for the mask history (R265; log 17). -/
theorem maskAfterRti_eq_ite (oldI newI : Bool) : maskAfterRti oldI newI = if oldI && !newI then .justCleared else .none := by
  cases oldI <;> cases newI <;> rfl

/-- A pull from memory, from a stack pointer just set. -/
theorem setSp_pull_of_memoryAt {s : State} {sp : Word} (h : s.memoryAt (sp + 1)) (k : Byte → State → Out) :
    (s.setSp sp).pull k = k (s.peek (sp + 1)) (s.setSp (sp + 1)) :=
  pull_of_memoryAt (s := s.setSp sp) h k

/-- RTI from memory: CCR, A, X and PC from the five bytes above SP (R210, R270). -/
theorem exec_rti_of_memoryAt {s : State} (hstack : ∀ k, 1 ≤ k → k ≤ 5 → s.memoryAt (s.sp + BitVec.ofNat 16 k)) :
    exec .rti s = .next { s with
      ccr := Flags.ofCcrByte (s.peek (s.sp + 1)), a := s.peek (s.sp + 2), x := s.peek (s.sp + 3)
      pc := wordOf (s.peek (s.sp + 4)) (s.peek (s.sp + 5)), sp := s.sp + 5
      mask := maskAfterRti s.ccr.i (Flags.ofCcrByte (s.peek (s.sp + 1))).i } := by
  have h1 : s.memoryAt (s.sp + 1) := hstack 1 (by decide) (by decide)
  have h2 : s.memoryAt (s.sp + 2) := hstack 2 (by decide) (by decide)
  have h3 : s.memoryAt (s.sp + 3) := hstack 3 (by decide) (by decide)
  have h4 : s.memoryAt (s.sp + 4) := hstack 4 (by decide) (by decide)
  have h5 : s.memoryAt (s.sp + 5) := hstack 5 (by decide) (by decide)
  have hsp2 : s.sp + 1 + 1 = s.sp + 2 := add_assoc s.sp 1 1
  have hsp3 : s.sp + 2 + 1 = s.sp + 3 := add_assoc s.sp 2 1
  have hsp4 : s.sp + 3 + 1 = s.sp + 4 := add_assoc s.sp 3 1
  have hsp5 : s.sp + 4 + 1 = s.sp + 5 := add_assoc s.sp 4 1
  show s.returnFromException = _
  simp only [State.returnFromException, State.pullWord]
  rw [pull_of_memoryAt h1, setSp_pull_of_memoryAt (by rwa [hsp2]), hsp2, setSp_pull_of_memoryAt (by rwa [hsp3]), hsp3,
    setSp_pull_of_memoryAt (by rwa [hsp4]), hsp4, setSp_pull_of_memoryAt (by rwa [hsp5]), hsp5]
  rfl

/-- Settles O53: five pulls; the fields of the flags are the six bits of the byte pulled first. -/
theorem rtiRestores : Obligations.RtiRestores := by
  unfold Obligations.RtiRestores
  refine ⟨⟨rfl, rfl, rfl⟩, fun s hstack => ?_⟩
  rw [exec_rti_of_memoryAt hstack, maskAfterRti_eq_ite]
  rfl

/-- Where RTI looks after an entry: the frame, counted from the lowered SP (R267, R270). -/
theorem entered_sp_add (s : State) (ret vector : Word) :
    (s.entered ret vector).sp + 1 = s.sp - 4 ∧ (s.entered ret vector).sp + 2 = s.sp - 3 ∧
    (s.entered ret vector).sp + 3 = s.sp - 2 ∧ (s.entered ret vector).sp + 4 = s.sp - 1 ∧
    (s.entered ret vector).sp + 5 = s.sp := by
  have hsp : (s.entered ret vector).sp = s.sp - 5 := rfl
  rw [hsp]
  refine ⟨?_, ?_, ?_, ?_, ?_⟩ <;> bv_omega

/-- RTI after an entry on a RAM stack goes back to the stacked address and restores all that the frame holds (R210, R270). -/
theorem exec_rti_of_entered {s : State} (hmem : s.mem.wf = true)
    (hstack : ∀ k, k < 5 → s.kind (s.sp - BitVec.ofNat 16 k) = .ram) (ret vector : Word) :
    ∃ u, exec .rti (s.entered ret vector) = .next u ∧ u.pc = ret ∧ u.sp = s.sp ∧ u.a = s.a ∧ u.h = s.h ∧ u.x = s.x ∧
      u.ccr = s.ccr := by
  obtain ⟨hlo, hhi, hx, ha, hccr⟩ := entered_frame hmem hstack ret vector
  obtain ⟨h1, h2, h3, h4, h5⟩ := entered_sp_add s ret vector
  have hmemory : ∀ k, 1 ≤ k → k ≤ 5 → (s.entered ret vector).memoryAt ((s.entered ret vector).sp + BitVec.ofNat 16 k) := by
    intro k hk hk'
    have hat : (s.entered ret vector).sp + BitVec.ofNat 16 k = s.sp - BitVec.ofNat 16 (5 - k) := by
      show s.sp - 5 + BitVec.ofNat 16 k = _
      bv_omega
    rw [hat]
    exact .inl ((entered_kind ret vector _).trans (hstack (5 - k) (by omega)))
  have hh := entered_h (s := s) ret vector
  generalize s.entered ret vector = t at *
  refine ⟨_, exec_rti_of_memoryAt hmemory, ?pc, h5, ?a, hh, ?x, ?ccr⟩
  case pc =>
    show wordOf (t.peek (t.sp + 4)) (t.peek (t.sp + 5)) = ret
    rw [h4, h5, hhi, hlo, wordOf_hiByte_loByte]
  case a => exact (congrArg t.peek h2).trans ha
  case x => exact (congrArg t.peek h3).trans hx
  case ccr =>
    show Flags.ofCcrByte (t.peek (t.sp + 1)) = s.ccr
    rw [h1, hccr, ofCcrByte_toByte]

/-- Settles O54: RTI finds the frame of SWI, and what the byte of the flags holds in bits 6 and 5 is lost on the way back. -/
theorem swiThenRti : Obligations.SwiThenRti := by
  unfold Obligations.SwiThenRti
  intro s t hmem hstack h
  obtain rfl := eq_entered_of_swi hstack h
  exact exec_rti_of_entered hmem hstack (s.pc + 1) swiVector

end Sys2Proof.Machine
end

section
/-! CERTIFICATES. Loads, stores and logic (45_register_memory.md R235, R236, R239, R242 to R244, R246, R247), and CMP followed by a
conditional branch (R237, R300). -/

namespace Sys2Proof.Machine

/-! ### Logic and loads -/

/-- Settles O48, from the forms of rows 4, 5, 8 and A; BIT is AND without the write to A. -/
theorem logicMeans : Obligations.LogicMeans := by
  unfold Obligations.LogicMeans
  exact ⟨⟨srcForms_of_srcWords rfl fun _ => ⟨rfl, rfl, rfl⟩, srcForms_of_srcWords rfl fun _ => ⟨rfl, rfl, rfl⟩,
      srcForms_of_srcWords rfl fun _ => ⟨rfl, rfl, rfl⟩, srcForms_of_srcWords rfl fun _ => ⟨rfl, rfl, rfl⟩⟩,
    srcMeans_of_withSrc (fun _ _ => rfl) fun _ _ => rfl,
    srcMeans_of_withSrc (fun _ _ => rfl) fun _ _ => rfl,
    srcMeans_of_withSrc (fun _ _ => rfl) fun _ _ => rfl,
    srcMeans_of_withSrc (fun _ _ => rfl) fun _ _ => rfl⟩

/-- Settles O49, from the forms of rows 6 and E; the operand is read before the register is written, so from the old H:X. -/
theorem loadMeans : Obligations.LoadMeans := by
  unfold Obligations.LoadMeans
  exact ⟨⟨srcForms_of_srcWords rfl fun _ => ⟨rfl, rfl, rfl⟩, srcForms_of_srcWords rfl fun _ => ⟨rfl, rfl, rfl⟩⟩,
    srcMeans_of_withSrc (fun _ _ => rfl) fun _ _ => rfl,
    srcMeans_of_withSrc (fun _ _ => rfl) fun _ _ => rfl⟩

/-! ### Stores -/

/-- A store whose words, length and cycles are those of its address in row `row` has the seven forms of R230. -/
theorem storeForms_of_memWords {i : Ea → Instr} {row : Byte} (hrow : 0xF0 &&& row = 0)
    (h : ∀ ea, encode (i ea) = memWords row ea ∧ (i ea).length = ea.length ∧ (i ea).cycles = ea.cycles) : StoreForms i row := by
  have hcol : ∀ col : Byte, col &&& 0xF0 = col → col + row = col ||| row := fun _ h => column_add_row h hrow
  intro dd ff hh ll ee
  simp [HasForm, h, memWords, prebyte, Ea.length, Ea.cycles, hcol]

/-- V cleared, N and Z from the value: `logic8` of the machine is `valueFlags` of the statements (R16, R39). -/
theorem logic8_eq_valueFlags (f : Flags) (r : Byte) : f.logic8 r = valueFlags r f := rfl

/-- A store to an implemented address: one write, and flags from the value, whatever the location keeps of it (R246, R247). -/
theorem storeByte_of_present {ea : Ea} {s : State} (h : s.present (s.ea ea) = true) (v : Byte) :
    storeByte ea v s = .next { s.afterWrite (s.ea ea) v with
      ccr := valueFlags v s.ccr, pc := s.pc + BitVec.ofNat 16 ea.length } := by
  rw [storeByte_eq_next.mpr ⟨h, rfl⟩, logic8_eq_valueFlags, advance_eq, State.setCcr_pc, State.afterWrite_pc]
  rfl

/-- Settles O50, from the forms of rows 7 and F; both instructions are one store of the register. -/
theorem storeMeans : Obligations.StoreMeans := by
  unfold Obligations.StoreMeans
  exact ⟨⟨storeForms_of_memWords rfl fun _ => ⟨rfl, rfl, rfl⟩, storeForms_of_memWords rfl fun _ => ⟨rfl, rfl, rfl⟩⟩,
    fun ea s h => ⟨storeByte_of_present h s.a, storeByte_of_present h s.x⟩⟩

/-! ### CMP, then a branch -/

@[simp] theorem State.afterOperand_a (s : State) (src : Src) : (s.afterOperand src).a = s.a := by
  cases src <;> simp [State.afterOperand]

@[simp] theorem State.afterOperand_ccr (s : State) (src : Src) : (s.afterOperand src).ccr = s.ccr := by
  cases src <;> simp [State.afterOperand]

/-- An instruction with a byte operand answers a next state only where the operand can be read. -/
theorem operandReady_of_withSrc_eq_next {src : Src} {s t : State} {f : Byte → State → State} (h : withSrc src s f = .next t) :
    s.operandReady src = true := by
  cases src with
  | imm ii => rfl
  | mem ea =>
    rw [withSrc, State.readSrc, readByte_eq_next] at h
    exact h.1

/-- After CMP the flags are those of the difference of A and the operand (R237). -/
theorem ccr_of_cmp {src : Src} {s t : State} (h : exec (.cmp src) s = .next t) :
    t.ccr = differenceFlags s.a (s.operand src) false s.ccr := by
  have hready : s.operandReady src = true := operandReady_of_withSrc_eq_next h
  obtain ⟨-, -, -, hcmp, -⟩ := subtractMeans
  cases (hcmp src s hready).symm.trans h
  simp only [State.afterOperand_a, State.afterOperand_ccr]

section
variable (a m : Byte) (f : Flags)

/-- Without a borrow coming in, C is the unsigned order (R14). -/
theorem differenceFlags_c : (differenceFlags a m false f).c = decide (a.toNat < m.toNat) := rfl

/-- Without a borrow coming in, Z is equality (R14). -/
theorem differenceFlags_z : (differenceFlags a m false f).z = decide (a = m) := by
  rw [Bool.eq_iff_iff, decide_eq_true_iff, ← sub_eq_zero (a := a)]
  simp [differenceFlags]

/-- The sign of the difference is wrong exactly at the signed overflow, so `N xor V` is the signed order (R14, R300; D11, log 20). -/
theorem differenceFlags_n_xor_v :
    ((differenceFlags a m false f).n ^^ (differenceFlags a m false f).v) = decide (a.toInt < m.toInt) := by
  rw [Bool.eq_iff_iff, Bool.xor_iff_ne]
  simp only [differenceFlags, outOfByte, byte_msb, BitVec.toNat_sub, toNat_carry, BitVec.toInt_eq_toNat_cond, Bool.toNat_false,
    ne_eq, decide_eq_decide, decide_eq_true_eq]
  omega

end

/-- A conditional branch under any form of its condition (R130). -/
theorem condBranch_congr {cond cond' : Bool} (h : cond = cond') (rr : Byte) (t : State) :
    condBranch rr cond t = .next (t.branch 2 rr cond') := by
  rw [condBranch, h]

/-- Settles O23: C and `N xor V` are the unsigned and the signed order of A and the operand and Z is their equality, so each branch
decides by the order, the equality, their disjunction or the negation of one of these. -/
theorem compareThenBranch : Obligations.CompareThenBranch := by
  unfold Obligations.CompareThenBranch
  intro src s t rr hcmp
  have hccr := ccr_of_cmp hcmp
  generalize s.operand src = m at hccr ⊢
  have hc : t.ccr.c = decide (s.a.toNat < m.toNat) := hccr ▸ differenceFlags_c s.a m s.ccr
  have hz : t.ccr.z = decide (s.a = m) := hccr ▸ differenceFlags_z s.a m s.ccr
  have hnv : (t.ccr.n ^^ t.ccr.v) = decide (s.a.toInt < m.toInt) := hccr ▸ differenceFlags_n_xor_v s.a m s.ccr
  have hls : (t.ccr.c || t.ccr.z) = decide (s.a.toNat ≤ m.toNat) := by
    rw [hc, hz, ← Bool.decide_or, decide_eq_decide, le_iff_lt_or_eq, BitVec.toNat_inj]
  have hle : (t.ccr.z || (t.ccr.n ^^ t.ccr.v)) = decide (s.a.toInt ≤ m.toInt) := by
    rw [hz, hnv, ← Bool.decide_or, decide_eq_decide, le_iff_eq_or_lt, BitVec.toInt_inj]
  refine ⟨condBranch_congr ?bhi rr t, condBranch_congr ?bhs rr t, condBranch_congr hc rr t, condBranch_congr hls rr t,
    condBranch_congr ?bgt rr t, condBranch_congr ?bge rr t, condBranch_congr hnv rr t, condBranch_congr hle rr t,
    condBranch_congr hz rr t, condBranch_congr ?bne rr t⟩
  case bhi => rw [hls, ← decide_not, decide_eq_decide, not_le]
  case bhs => rw [hc, ← decide_not, decide_eq_decide, not_lt]
  case bgt => rw [hle, ← decide_not, decide_eq_decide, not_le]
  case bge => rw [hnv, ← decide_not, decide_eq_decide, not_lt]
  case bne => rw [hz, ← decide_not]

end Sys2Proof.Machine
end

section
/-! SUPPORT. Interrupts at a boundary: which source is the best, when one is recognised, and what enters it or a reset that cuts the
entry off (60_exceptions.md R263 to R266, R272; 70_reset_and_hazards.md R290). -/

namespace Sys2Proof.Machine

/-! ### The best source -/

theorem bestSource_eq_none_iff {pending : List IntSource} : bestSource pending = none ↔ pending = [] := by
  cases pending with
  | nil => exact ⟨fun _ => rfl, fun _ => rfl⟩
  | cons head rest =>
    refine ⟨fun h => ?_, nofun⟩
    rw [bestSource] at h
    split at h
    · cases h
    · split at h <;> cases h

/-- The best of a source and others: that source alone, that source before the best of the others, or the best of the others before
it (R272). -/
theorem bestSource_cons_eq_some {head src : IntSource} {rest : List IntSource} (h : bestSource (head :: rest) = some src) :
    src = head ∧ rest = [] ∨ (∃ best, bestSource rest = some best ∧ src = head ∧ head.rank ≤ best.rank) ∨
      bestSource rest = some src ∧ src.rank < head.rank := by
  rw [bestSource] at h
  split at h
  next hnone => exact .inl ⟨(Option.some.inj h).symm, bestSource_eq_none_iff.mp hnone⟩
  next best hbest =>
    split at h
    next hle => exact .inr (.inl ⟨best, hbest, (Option.some.inj h).symm, hle⟩)
    next hlt => exact .inr (.inr ⟨hbest.trans h, Option.some.inj h ▸ Nat.lt_of_not_le hlt⟩)

theorem bestSource_is_best {pending : List IntSource} : ∀ {src : IntSource}, bestSource pending = some src →
    src ∈ pending ∧ ∀ other ∈ pending, src.rank ≤ other.rank := by
  induction pending with
  | nil => exact nofun
  | cons head rest ih =>
    intro src h
    simp only [List.mem_cons, forall_eq_or_imp]
    rcases bestSource_cons_eq_some h with ⟨rfl, rfl⟩ | ⟨best, hbest, rfl, hle⟩ | ⟨hbest, hlt⟩
    · exact ⟨.inl rfl, Nat.le_refl _, nofun⟩
    · exact ⟨.inl rfl, Nat.le_refl _, fun other hother => Nat.le_trans hle ((ih hbest).2 other hother)⟩
    · obtain ⟨hmem, hbetter⟩ := ih hbest
      exact ⟨.inr hmem, Nat.le_of_lt hlt, hbetter⟩

/-! ### Pending and recognised -/

theorem irqPending_iff {s : State} : s.irqPending = true ↔ s.env.irqPin = false ∧ s.irqEnable = true := by
  simp [State.irqPending]

theorem mem_pendingSources_iff {s : State} {src : IntSource} :
    src ∈ s.pendingSources ↔ src = irqSource s.cfg ∧ s.env.irqPin = false ∧ s.irqEnable = true ∨
      src ∈ s.cfg.sources ∧ src.name ∈ s.env.requests := by
  have hirq : src ∈ (if s.irqPending then [irqSource s.cfg] else []) ↔ src = irqSource s.cfg ∧ s.irqPending = true := by
    split <;> simp [*]
  rw [State.pendingSources, List.mem_append, hirq, irqPending_iff, List.mem_filter, List.contains_iff_mem]

theorem recognised_of_unmasked {s : State} (h : s.unmasked = true) : s.recognised = bestSource s.pendingSources := if_pos h

theorem recognised_of_masked {s : State} (h : s.unmasked = false) : s.recognised = none := if_neg (by simp [h])

theorem recognised_of_none_pending {s : State} (h : s.pendingSources = []) : s.recognised = none := by
  rw [State.recognised, bestSource_eq_none_iff.mpr h, ite_self]

/-! ### The entry -/

theorem enterInterrupt_of_not_cut {s : State} (h : s.env.cut = none) (vector : Word) :
    s.enterInterrupt vector = s.takeException s.pc vector :=
  orCutShort_none h _ _

theorem enterInterrupt_of_cut {s : State} {n : Nat} (h : s.env.cut = some n) (vector : Word) :
    s.enterInterrupt vector = s.replay ((s.entryAccesses s.pc vector).take n) State.takeReset :=
  orCutShort_some h _ _

/-- The frame of an entry on a RAM stack changes nothing but memory (R267). -/
theorem stackFrame_of_ram {s : State} (hstack : ∀ k, k < 5 → s.kind (s.sp - BitVec.ofNat 16 k) = .ram) (ret : Word) :
    ∃ mem, s.stackFrame ret = s.setMem mem := by
  obtain ⟨h0, h1, h2, h3, h4⟩ := forall_lt_five_below (p := fun addr => s.kind addr = .ram) hstack
  simp only [State.stackFrame, afterWrite_of_ram, State.setMem_kind, h0, h1, h2, h3, h4]
  exact ⟨_, rfl⟩

/-- An entry on a RAM stack through a vector in memory changes memory, SP, I, PC and the run state, and nothing else (R266). -/
theorem entered_of_memory {s : State} {vector : Word} (hstack : ∀ k, k < 5 → s.kind (s.sp - BitVec.ofNat 16 k) = .ram)
    (hhi : s.memoryAt vector) (hlo : s.memoryAt (vector + 1)) (ret : Word) :
    s.entered ret vector = { s with
      mem := (s.entered ret vector).mem, sp := s.sp - 5, ccr := { s.ccr with i := true }
      pc := wordOf ((s.entered ret vector).peek vector) ((s.entered ret vector).peek (vector + 1)), run := .running } := by
  obtain ⟨mem, hmem⟩ := stackFrame_of_ram hstack ret
  have hentered : s.entered ret vector = { s with
      mem := mem, sp := s.sp - 5, ccr := { s.ccr with i := true }
      pc := wordOf (mem.read vector.toNat) (mem.read (vector + 1).toNat), run := .running } := by
    rw [State.entered, hmem, afterRead_of_memoryAt (s := s.setMem mem) hhi, afterRead_of_memoryAt (s := s.setMem mem) hlo,
      byteAt_of_memoryAt (s := s.setMem mem) hhi, byteAt_of_memoryAt (s := s.setMem mem) hlo]
    rfl
  rw [hentered]
  rfl

end Sys2Proof.Machine
end

section
/-! SUPPORT. A step where nothing is left of what the environment will present, so that it holds its inputs (log 13). -/

namespace Sys2Proof.Machine

section
variable {s t : State}

theorem takeException_future {ret vector : Word} (h : s.takeException ret vector = .next t) : t.future = s.future := by
  obtain ⟨u, -, hdone⟩ := follows_next_iff.mp (h ▸ follows_takeException s ret vector)
  exact hdone.future

theorem takeReset_future (h : s.takeReset = .next t) : t.future = s.future := by
  obtain ⟨r, rfl, rfl⟩ := takeReset_eq_next h
  simp only [State.setPc_future, State.afterRead_future]
  rfl

theorem replay_takeReset_future {accs : List Access} (h : s.replay accs State.takeReset = .next t) : t.future = s.future := by
  obtain ⟨u, hu, hreset⟩ := replay_eq_next.mp h
  have hkept : u.future = s.future := replay_keeps (P := fun w => w.future = s.future)
    (fun w addr hw => (State.afterRead_future w addr).trans hw) (fun w addr v hw => (State.afterWrite_future w addr v).trans hw)
    rfl hu
  exact (takeReset_future hreset).trans hkept

theorem enterInterrupt_future {vector : Word} (h : s.enterInterrupt vector = .next t) : t.future = s.future := by
  cases hcut : s.env.cut with
  | none => exact takeException_future (enterInterrupt_of_not_cut hcut vector ▸ h)
  | some n => exact replay_takeReset_future (enterInterrupt_of_cut hcut vector ▸ h)

theorem tick_of_future_nil (h : s.future = []) : s.tick = s := by
  rw [State.tick, h]

theorem step_of_boundary_eq_next (hb : s.boundary = .next t) (hfuture : t.future = []) : step s = .next t := by
  rw [step, hb, mapNext_next, tick_of_future_nil hfuture]

/-- Where no input is left and the boundary takes none away, a step is what happens at the boundary. -/
theorem step_of_future_nil (hfuture : s.future = []) (hkeeps : ∀ t, s.boundary = .next t → t.future = s.future) :
    step s = s.boundary := by
  rw [step]
  cases hb : s.boundary with
  | next t => rw [mapNext_next, tick_of_future_nil ((hkeeps t hb).trans hfuture)]
  | fault r => rfl
  | refused r => rfl

end

/-! ### The recovery delay -/

section
variable {s : State}

/-- A low pin ends the stopped state: the delay begins, for a reset if /RESET is low (R275, R303). -/
theorem step_of_stopped (hrun : s.run = .stopped) (hfuture : s.future = []) (hpin : s.env.reset = true ∨ s.env.irqPin = false) :
    step s = .next (s.setRun (.recovering stopRecoveryCycles s.env.reset)) := by
  have hb : s.boundary = .next (s.setRun (.recovering stopRecoveryCycles s.env.reset)) := by
    rw [State.boundary, hrun]
    cases hreset : s.env.reset with
    | true => simp [State.stoppedStep, hreset]
    | false => simp [State.stoppedStep, hreset, show s.env.irqPin = false from hpin.resolve_left (by simp [hreset])]
  exact step_of_boundary_eq_next hb hfuture

/-- One cycle of the delay, with the pins as they were when it began (R303). -/
theorem step_of_recovering_succ (hfuture : s.future = []) (n : Nat) :
    step (s.setRun (.recovering (n + 1) s.env.reset)) = .next (s.setRun (.recovering n s.env.reset)) := by
  have hb : (s.setRun (.recovering (n + 1) s.env.reset)).boundary = .next (s.setRun (.recovering n s.env.reset)) :=
    if_neg (by simp)
  exact step_of_boundary_eq_next hb hfuture

theorem run_of_recovering (hfuture : s.future = []) (n : Nat) :
    Host.Core.run Sys2Proof.core n (s.setRun (.recovering n s.env.reset)) = .next (s.setRun (.recovering 0 s.env.reset)) := by
  induction n with
  | zero => rfl
  | succ n ih => rw [run_succ_of_step (step_of_recovering_succ hfuture n), ih]

/-- The stopped state after a pin went low and stayed so: one step to begin the delay and one for each of its cycles (R303). -/
theorem run_of_stopped (hrun : s.run = .stopped) (hfuture : s.future = []) (hpin : s.env.reset = true ∨ s.env.irqPin = false) :
    Host.Core.run Sys2Proof.core (stopRecoveryCycles + 1) s = .next (s.setRun (.recovering 0 s.env.reset)) := by
  rw [run_succ_of_step (step_of_stopped hrun hfuture hpin), run_of_recovering hfuture]

theorem step_of_recovered_by_reset (hrun : s.run = .recovering 0 true) (hfuture : s.future = []) : step s = s.takeReset := by
  have hb : s.boundary = s.takeReset := by simp [State.boundary, State.recoveringStep, hrun]
  rw [step_of_future_nil hfuture fun t ht => takeReset_future (hb ▸ ht), hb]

theorem step_of_recovered_by_irq (hrun : s.run = .recovering 0 false) (hreset : s.env.reset = false) (hfuture : s.future = []) :
    step s = s.enterInterrupt s.cfg.irqVector := by
  have hb : s.boundary = s.enterInterrupt s.cfg.irqVector := by simp [State.boundary, State.recoveringStep, hrun, hreset]
  rw [step_of_future_nil hfuture fun t ht => enterInterrupt_future (hb ▸ ht), hb]

end

end Sys2Proof.Machine
end

section
/-! CERTIFICATES. Interrupts: priority, masking, the entry, and how the waiting and the stopped state end (60_exceptions.md). -/

namespace Sys2Proof.Machine

/-- Settles O56: by induction on the list of the pending sources, each of which the best of the later ones is compared with. -/
theorem priority : Obligations.Priority := by
  unfold Obligations.Priority
  refine ⟨fun pending src h => bestSource_is_best h, fun pending hne => ?_, fun s src => mem_pendingSources_iff⟩
  exact Option.ne_none_iff_exists'.mp fun hnone => hne (bestSource_eq_none_iff.mp hnone)

/-- Settles O55: the mask lets the best source through or nothing, by the mask history, I and the choice. -/
theorem masking : Obligations.Masking := by
  unfold Obligations.Masking
  intro s
  refine ⟨fun hm hi => recognised_of_masked ?_, fun hm hi => recognised_of_unmasked ?_, fun hm hi hc => recognised_of_masked ?_,
    fun hm hc => recognised_of_unmasked ?_, fun hm hi hc => recognised_of_masked ?_, fun hm hi hc => recognised_of_unmasked ?_,
    recognised_of_none_pending⟩
  all_goals simp [State.unmasked, *]

/-- Settles O52: the step is an entry with the current PC, whose frame no push of it destroys; the accesses are those an entry is
known to follow. -/
theorem interruptEntry : Obligations.InterruptEntry := by
  unfold Obligations.InterruptEntry
  refine ⟨fun s src hrun hreset hcut hsrc hmem hstack hhi hlo => ?entry, fun s t ret vector h => ?accesses⟩
  case entry =>
    have htaken : (s.setMask .none).takeException s.pc src.vector = .next ((s.setMask .none).entered s.pc src.vector) :=
      (takeException_eq_next_iff (s := s.setMask .none) fun k hk => present_of_memoryAt (.inl (hstack k hk))).mpr
        ⟨present_of_memoryAt hhi, present_of_memoryAt hlo, rfl⟩
    have hstep : step s = .next ((s.setMask .none).entered s.pc src.vector).tick := by
      rw [step, boundary_of_recognised hrun hreset hsrc, enterInterrupt_of_not_cut (s := s.setMask .none) hcut,
        State.setMask_pc, htaken, mapNext_next]
    obtain ⟨hpcl, hpch, hx, ha, hccr⟩ := entered_frame (s := s.setMask .none) hmem hstack s.pc src.vector
    exact ⟨_, hstep, hpcl, hpch, hx, ha, hccr,
      fun addr hout => entered_peek_of_outside (s := s.setMask .none) hmem hstack s.pc src.vector hout,
      entered_of_memory (s := s.setMask .none) hstack hhi hlo s.pc⟩
  case accesses =>
    obtain ⟨u, hu, hdone⟩ := follows_next_iff.mp (h ▸ follows_takeException s ret vector)
    exact ⟨u, hu, hdone.mem, hdone.devOut, hdone.draws (by decide)⟩

theorem boundary_of_waiting {s : State} (hrun : s.run = .waiting) (hreset : s.env.reset = false) (hnone : s.pendingSources = []) :
    s.boundary = .next s := by
  simp [State.boundary, State.waitingStep, hrun, hreset, bestSource_eq_none_iff.mpr hnone]

theorem boundary_of_waiting_pending {s : State} {src : IntSource} (hrun : s.run = .waiting) (hreset : s.env.reset = false)
    (hsrc : bestSource s.pendingSources = some src) : s.boundary = s.enterInterrupt src.vector := by
  simp [State.boundary, State.waitingStep, hrun, hreset, hsrc]

/-- Settles O57: without a reset the boundary waits, or enters the best source, whatever I is. -/
theorem waitingState : Obligations.WaitingState := by
  unfold Obligations.WaitingState
  refine fun s hrun hreset => ⟨fun hnone => ?waits, fun src hsrc hcut => ?enters, fun src n hsrc hcut => ?cut⟩
  case waits => rw [step, boundary_of_waiting hrun hreset hnone, mapNext_next]
  case enters => rw [step, boundary_of_waiting_pending hrun hreset hsrc, enterInterrupt_of_not_cut hcut]
  case cut => rw [step, boundary_of_waiting_pending hrun hreset hsrc, enterInterrupt_of_cut hcut]

theorem step_of_stopped_quiet {s : State} (hrun : s.run = .stopped) (hfuture : s.future = []) (hreset : s.env.reset = false)
    (hirq : s.env.irqPin = true) : step s = .next s := by
  have hb : s.boundary = .next s := by simp [State.boundary, State.stoppedStep, hrun, hreset, hirq]
  exact step_of_boundary_eq_next hb hfuture

/-- Settles O58: one step begins the delay, each of the 4095 that follow counts a cycle of it, by induction on the cycles, and the
next one takes what woke the machine. -/
theorem stopRecovery : Obligations.StopRecovery := by
  unfold Obligations.StopRecovery
  refine fun s hrun hfuture => ⟨fun hreset hirq => step_of_stopped_quiet hrun hfuture hreset hirq, fun hreset hirq => ?irq,
    fun hreset => ?reset⟩
  case irq =>
    have hdelay := run_of_stopped hrun hfuture (.inr hirq)
    rw [hreset] at hdelay
    have hend := step_of_recovered_by_irq (s := s.setRun (.recovering 0 false)) rfl hreset hfuture
    exact ⟨hdelay, fun hcut => hend.trans (enterInterrupt_of_not_cut (s := s.setRun (.recovering 0 false)) hcut _),
      fun n hcut => hend.trans (enterInterrupt_of_cut (s := s.setRun (.recovering 0 false)) hcut _)⟩
  case reset =>
    have hdelay := run_of_stopped hrun hfuture (.inl hreset)
    rw [hreset] at hdelay
    exact ⟨hdelay, step_of_recovered_by_reset (s := s.setRun (.recovering 0 true)) rfl hfuture⟩

end Sys2Proof.Machine
end
